-- ==== Sys2Proof/Word.lean ====
section
/-! DEFINITION. The word types of the JF-312 (spec/00_scope.md, Conventions): a word is 16 bits, an
octet 8 bits, a bus address 20 bits, a new-side address 48 bits. -/

namespace Sys2Proof

/-- An octet. -/
abbrev Octet := BitVec 8

/-- A word of buffer memory: two octets, the first octet of a sequence in the high half. -/
abbrev Word := BitVec 16

/-- A word address on A19–A0. -/
abbrev BusAddr := BitVec 20

/-- A new-side (pair-side) address, first octet in the most significant position. -/
abbrev NewAddr := BitVec 48

end Sys2Proof
end

