-- ==== Sys2Proof/Syntax.lean ====
section
/-! DEFINITION. The commands of the JF-312: one constructor per row of spec/opcode_table.json.

A row that is an access on the shared bus carries what stands on the bus-side pins: the master, the
word address, the byte enables (bit 1 is BE1, the high octet; bit 0 is BE0, the low octet) and the
data. A row that is a processor write of one control-area word carries the data and, where the row
covers several words, which of them. A command row carries its tag: its arguments are the staging
copies of words 1–4 (R26). A row of the part's own work carries what it is about: a trunk, a job, a
timer, an engine. A row whose rule reads the general lines' pins carries the levels the unit holds
them at (bit l for line l). -/

namespace Sys2Proof

/-- The four bus masters, by their codes 0–3 on MC1–MC0 (spec/00_scope.md). -/
inductive Master where
  | processor
  | coaxEngine
  | pairEngine
  | printEngine
  deriving DecidableEq, Repr

/-- The two receive engines. -/
inductive Engine where
  | coax
  | pair
  deriving DecidableEq, Repr

/-- The commands, one per row of the table, in its order. -/
inductive Instr where
  /-- RESET falls; `inCycle` says that a private cycle was in progress (R15). -/
  | pinReset (inCycle : Bool)
  /-- RESET is released with `cab` on the straps (R1). -/
  | resetRelease (cab : BitVec 7)
  /-- A rising edge of TB, with `pins` on the general lines (R49, R115, R164, R169). -/
  | tick (pins : Octet)
  | secondBoundary
  | decayTick
  | holdExpiry (trunk : Nat)
  | trialExpiry (trunk : Nat)
  | clearCountdownExpiry (trunk : Nat)
  | idleCountdownExpiry (job : Nat)
  | graceCountdownExpiry (job : Nat)
  | timerExpiry (timer : Nat)
  | masterRead (m : Master) (a : BusAddr) (be : BitVec 2)
  | descriptorRead (e : Engine) (a : BusAddr) (be : BitVec 2)
  | masterWrite (m : Master) (a : BusAddr) (be : BitVec 2) (d : Word)
  /-- A processor write of one octet of the control-area word `o`; `high` says which. -/
  | byteWrite (o : BitVec 13) (high : Bool) (d : Word)
  /-- A write by master `m`, not the processor, of the control-area word `o`. -/
  | strayWrite (m : Master) (o : BitVec 13) (be : BitVec 2) (d : Word)
  | headerCapture (e : Engine) (a : BusAddr) (be : BitVec 2) (d : Word)
  /-- A receive engine's full-word write. -/
  | receiveCompletion (e : Engine) (a : BusAddr) (d : Word)
  | cancellingWriteHeld (m : Master) (a : BusAddr) (be : BitVec 2) (d : Word)
  | cancellingWriteReleasing (m : Master) (a : BusAddr) (be : BitVec 2) (d : Word)
  /-- A processor full-word write. -/
  | transmitGuard (a : BusAddr) (d : Word)
  /-- A print engine full-word write. -/
  | printerCompletion (a : BusAddr) (d : Word)
  /-- A print engine full-word write. -/
  | printedCountWrite (a : BusAddr) (d : Word)
  /-- A processor full-word write of the control-area word `o`. -/
  | stagingWrite (o : BitVec 13) (d : Word)
  | unitRecordCommit (d : Word)
  /-- `ring` is 0 coax receive, 1 pair receive, 2 coax transmit. -/
  | ringRecordCommit (ring : Nat) (d : Word)
  | healthRecordCommit (d : Word)
  | printRecordCommit (d : Word)
  | agingRecordCommit (d : Word)
  | lineRecordCommit (line : Nat) (d : Word) (pins : Octet)
  | timerRecordCommit (timer : Nat) (d : Word)
  | printerRecordCommit (printer : Nat) (d : Word)
  | reactionRecordCommit (reaction : Nat) (d : Word)
  | updateGate (d : Word) (pins : Octet)
  | noticeMask (d : Word)
  | recordMask (d : Word)
  | eventConsumerIndex (d : Word)
  | load (tag : Octet)
  | start (tag : Octet) (pins : Octet)
  | stop (tag : Octet)
  | restart (tag : Octet)
  | status (tag : Octet) (pins : Octet)
  | inquire (tag : Octet)
  | setStation (tag : Octet)
  | clearStation (tag : Octet)
  | freeProxy (tag : Octet)
  | quarantine (tag : Octet)
  | releaseStation (tag : Octet)
  | isolateTrunk (tag : Octet)
  | releaseTrunk (tag : Octet)
  | cancelJob (tag : Octet)
  | holdPrinter (tag : Octet)
  | resumePrinter (tag : Octet)
  | startTimer (tag : Octet)
  | stopTimer (tag : Octet)
  | setLine (tag : Octet)
  | unknownCommand (code : Octet) (tag : Octet)
  /-- A command word of any code, written while a command is in progress. -/
  | commandRefused (code : Octet) (tag : Octet)
  | applyStationCommand
  /-- One private cycle; `pins` are read if it brings LOAD a line record (R27, R167). -/
  | privateCycle (pins : Octet)
  | queuePlaceGiven
  /-- The end of a stretch, with `pins` for the command or commit the stretched write may be. -/
  | stretchEnd (pins : Octet)
  | stageTwo (e : Engine)
  deriving DecidableEq, Repr

end Sys2Proof
end

