-- ==== Sys2Proof/Decode.lean ====
section
/-! DEFINITION. The reading of a command from a word by the table's bits. -/

namespace Sys2Proof

/-- No row of spec/opcode_table.json gives bits (every row's "fields" is empty and none has "fixed"):
the part's commands arrive as bus accesses, edges and events, not as encoded words. So no word spells
a command, and the answer is none for every word. -/
def decodeTableWord (nbits w : Nat) : Option Instr :=
  match nbits, w with
  | _, _ => none

end Sys2Proof
end

