-- ==== Sys2Proof/Machine/Bits.lean ====
section
/-! DEFINITION. Octets and fields of words, and the order of octets in memory (spec/00_scope.md,
Conventions: two octets a word, the first in the high half). -/

namespace Sys2Proof.Machine

/-- The high octet of a word. -/
def hiOctet (w : Word) : Octet := w.extractLsb' 8 8

/-- The low octet of a word. -/
def loOctet (w : Word) : Octet := w.extractLsb' 0 8

/-- A word of two octets, the high one first. -/
def wordOf (h l : Octet) : Word := h ++ l

/-- A word whose octets are two numbers, each taken modulo 256. -/
def octetPair (h l : Nat) : Word := BitVec.ofNat 16 (h % 256 * 256 + l % 256)

/-- A number as a word. -/
def wordNat (n : Nat) : Word := BitVec.ofNat 16 n

/-- The `n` bits of a word from bit `lo` up, as a number. -/
def bitsOf (w : Word) (lo n : Nat) : Nat := w.toNat / 2 ^ lo % 2 ^ n

/-- Bit `i` of a word. -/
def bitOf (w : Word) (i : Nat) : Bool := w.getLsbD i

/-- A Bool as a bit of a number. -/
def bitNat (b : Bool) : Nat := if b then 1 else 0

/-- A new-side address of three words, the first two octets in the first word. -/
def addrOf (a b c : Word) : NewAddr := BitVec.ofNat 48 ((a.toNat * 65536 + b.toNat) * 65536 + c.toNat)

/-- The three words of a new-side address, first octet first. -/
def addrWords (x : NewAddr) : List Word :=
  [BitVec.ofNat 16 (x.toNat / 4294967296), BitVec.ofNat 16 (x.toNat / 65536), BitVec.ofNat 16 x.toNat]

/-- A new-side address of six octets, first octet first. -/
def addrOfOctets (o : Nat → Octet) (k : Nat) : NewAddr :=
  addrOf (wordOf (o k) (o (k + 1))) (wordOf (o (k + 2)) (o (k + 3))) (wordOf (o (k + 4)) (o (k + 5)))

/-- Addition that saturates at `hi` (spec/00_scope.md, Ranges). -/
def satAdd (hi a b : Nat) : Nat := min hi (a + b)

/-- A number clamped to the nearer limit (R19). -/
def clampTo (lo hi n : Nat) : Nat := max lo (min hi n)

end Sys2Proof.Machine
end

