-- ==== Sys2Proof/Config.lean ====
section
/-! DEFINITION. What is fixed for every JF-312, and the free values: what the manual leaves open and
says no more of. -/

namespace Sys2Proof.Config

/-- The private queue never holds more than 16 entries (R7). -/
def queueLimit : Nat := 16

/-- Each receive engine's held list has four slots (section 3.4). -/
def heldLimit : Nat := 4

/-- Words of buffer memory: 1,048,576 (spec/00_scope.md). -/
def memoryWords : Nat := 1048576

/-- Words of the control area (R1). -/
def controlWords : Nat := 8192

/-- Spool entries in the pool (R136). -/
def spoolEntries : Nat := 128

/-- Job records (R133). -/
def jobRecords : Nat := 32

/-- Proxy map slots (R49). -/
def proxySlots : Nat := 64

/-- Firings a chain of reactions may make before a trigger fires none (R174: depths 1 to 4 fire). -/
def chainDepth : Nat := 4

/-- Bound on the nested claim hand-overs of one event: each one ends a job or applies a printer
record, and there are 32 jobs and 8 records (R141, R143, R154). -/
def serveFuel : Nat := 64

/-- Bound on the moves of the part's own work before an access that is asked for while WAIT holds another
(R12 to R14, assumption 3). -/
def stretchFuel : Nat := 512

/-- FREE VALUE (R15, assumption 9): how many words of a broken-off deposit had reached memory when
RESET fell: "any number from none to all may have reached memory". It has no body: nothing can be
proved of its value. The machine applies it to `State.freeCount`, which every use advances. -/
opaque brokenWords : Nat → Nat

end Sys2Proof.Config
end

