-- ==== Sys2Proof/Machine/Table.lean ====
section
/-! DEFINITION. Finite tables in one canonical form: a list of (index, value) pairs, indices strictly
rising, no entry equal to the value `d` that an unlisted index reads as. Buffer memory is one, its
octets at 2a (high half of word a) and 2a + 1 (low half); so are the station table, the job table and
the rest of the part's tables, whose unlisted entries read as their pin-reset values. -/

namespace Sys2Proof.Machine

/-- A finite table: the entries that differ from the value an unlisted index reads as. -/
abbrev Table (α : Type) := List (Nat × α)

/-- The value at an index; `d` where nothing is listed. -/
def tget {α : Type} (d : α) : Table α → Nat → α
  | [], _ => d
  | (k, v) :: t, i => if k = i then v else tget d t i

/-- The table without an index. -/
def terase {α : Type} (t : Table α) (i : Nat) : Table α := t.filter fun e => e.1 ≠ i

/-- An entry put before the first one of a greater index. -/
def tinsert {α : Type} (i : Nat) (v : α) : Table α → Table α
  | [] => [(i, v)]
  | (k, w) :: t => if i < k then (i, v) :: (k, w) :: t else (k, w) :: tinsert i v t

/-- The table with `v` at `i`; writing the value an unlisted index reads as removes the entry. -/
def tset {α : Type} [DecidableEq α] (d : α) (t : Table α) (i : Nat) (v : α) : Table α :=
  if v = d then terase t i else tinsert i v (terase t i)

/-- The indices of a table rise strictly. -/
def trising {α : Type} : Table α → Bool
  | [] => true
  | [_] => true
  | a :: b :: t => decide (a.1 < b.1) && trising (b :: t)

/-- The canonical form of a table. -/
def tableOk {α : Type} [DecidableEq α] (d : α) (t : Table α) : Bool :=
  trising t && t.all fun e => decide (e.2 ≠ d)

end Sys2Proof.Machine
end

