-- ==== Sys2Proof/Machine/Records.lean ====
section
/-! DEFINITION. The configuration records as the part holds them (working copies, pending and awaiting
commits), with the built-in working values of R24. -/

namespace Sys2Proof.Machine

/-- Trunk states, by the codes of R31. -/
inductive TrunkState where
  | disabled | inService | watch | isolated | trial | lockedOut
  deriving DecidableEq, Repr

/-- The three modes (R25). -/
inductive Mode where
  | pass | loading | run
  deriving DecidableEq, Repr

/-- A pin level, or none driven (section 11.2). -/
inductive Level where
  | low | high | undriven
  deriving DecidableEq, Repr

/-- Line functions 0–6 (section 11.2). -/
inductive LineFn where
  | unused | input | output | relay | trunkLamp | printerLamp | printerReady
  deriving DecidableEq, Repr

/-- Pair modes 0–2 (section 10.2). -/
inductive PairMode where
  | independent | failover | alternate
  deriving DecidableEq, Repr

/-- Trigger kinds 0–10 (section 11.3). -/
inductive TriggerKind where
  | none | trunkEnters | stationQuarantined | printerStalled | printerEntersReady | jobDone
  | jobAbandoned | timer | lineRise | lineFall | proxyPoolEmpty
  deriving DecidableEq, Repr

/-- Action kinds 0–9 (section 11.3). -/
inductive ActionKind where
  | none | startTimer | stopTimer | setLineHigh | setLineLow | isolateTrunk | releaseTrunk
  | holdPrinter | resumePrinter | note
  deriving DecidableEq, Repr

/-- The unit record's fields (R20). -/
structure UnitRec where
  nt : Nat
  np : Nat
  nr : Nat
  c : Nat
  u : Nat
  pLo : Nat
  pHi : Nat
  aliasBase : NewAddr
  linkType : Word
  deriving DecidableEq, Repr

/-- A ring record's fields: the ring base and the size exponent (R20). -/
structure RingRec where
  base : Nat
  e : Nat
  deriving DecidableEq, Repr

/-- The health record's fields (section 7.4). -/
structure HealthRec where
  bodyCrc : Nat
  short : Nat
  long : Nat
  code : Nat
  reflection : Nat
  header : Nat
  malformed : Nat
  goodCredit : Nat
  decayFactor : Nat
  stationStep : Nat
  decayInterval : Nat
  tw : Nat
  ti : Nat
  holdBase : Nat
  holdMax : Nat
  trial : Nat
  clearInterval : Nat
  stationLong : Nat
  stationMismatch : Nat
  stationConflict : Nat
  stationLimit : Nat
  maxStrikes : Nat
  deriving DecidableEq, Repr

/-- The print record's fields (R134). -/
structure PrintRec where
  idleLimit : Nat
  grace : Nat
  waitCap : Nat
  deriving DecidableEq, Repr

/-- The aging record's fields (section 4.2). -/
structure AgingRec where
  silence : Nat
  removal : Nat
  proxyFree : Nat
  reclaimMin : Nat
  flapWindow : Nat
  deriving DecidableEq, Repr

/-- The age limits among the aging record's fields, which apply from a second boundary on (R51). -/
structure AgeLimits where
  silence : Nat
  removal : Nat
  proxyFree : Nat
  reclaimMin : Nat
  deriving DecidableEq, Repr

/-- The age limits of an aging record. -/
def AgingRec.limits (r : AgingRec) : AgeLimits :=
  { silence := r.silence, removal := r.removal, proxyFree := r.proxyFree, reclaimMin := r.reclaimMin }

/-- A line record's fields (section 11.2). -/
structure LineRec where
  fn : LineFn
  obj : Nat
  activeLow : Bool
  rest : Level
  deriving DecidableEq, Repr

/-- A timer record's fields (section 11.1). -/
structure TimerRec where
  period : Nat
  repeats : Bool
  deriving DecidableEq, Repr

/-- A printer record's fields (section 10.2); `pairMode` and `swap` are used in an even printer's. -/
structure PrinterRec where
  enabled : Bool
  base : Nat
  e : Nat
  pairMode : PairMode
  swap : Bool
  deriving DecidableEq, Repr

/-- A reaction record's fields (section 11.3). -/
structure ReactionRec where
  trigger : TriggerKind
  triggerObj : Nat
  triggerState : TrunkState
  action : ActionKind
  actionObj : Nat
  enabled : Bool
  once : Bool
  deriving DecidableEq, Repr

/-- The unit record after pin reset (R24). The proxy range is empty because P_lo is above P_hi; the two
numbers themselves are a DESIGN CHOICE (assumption 11). -/
def UnitRec.builtIn : UnitRec :=
  { nt := 1, np := 0, nr := 0, c := 0, u := 0, pLo := 2, pHi := 1, aliasBase := 0, linkType := 0 }

/-- The health record after pin reset (R24). -/
def HealthRec.builtIn : HealthRec :=
  { bodyCrc := 60, short := 20, long := 80, code := 30, reflection := 120, header := 40,
    malformed := 40, goodCredit := 2, decayFactor := 32, stationStep := 1, decayInterval := 10,
    tw := 400, ti := 1000, holdBase := 5, holdMax := 300, trial := 30, clearInterval := 600,
    stationLong := 16, stationMismatch := 8, stationConflict := 64, stationLimit := 128,
    maxStrikes := 4 }

/-- The print record after pin reset (R24). -/
def PrintRec.builtIn : PrintRec := { idleLimit := 30, grace := 20, waitCap := 8 }

/-- The aging record after pin reset (R24). -/
def AgingRec.builtIn : AgingRec :=
  { silence := 120, removal := 3600, proxyFree := 900, reclaimMin := 60, flapWindow := 10 }

/-- A line record after pin reset: function UNUSED (R24). The other fields are a DESIGN CHOICE (assumption
47). -/
def LineRec.builtIn : LineRec := { fn := .unused, obj := 0, activeLow := false, rest := .low }

/-- A timer record after pin reset: period 0, once (R24). -/
def TimerRec.builtIn : TimerRec := { period := 0, repeats := false }

/-- A printer record after pin reset: not enabled (R24). The other fields are a DESIGN CHOICE (assumption 47). -/
def PrinterRec.builtIn : PrinterRec :=
  { enabled := false, base := 0, e := 3, pairMode := .independent, swap := false }

/-- A reaction record after pin reset: not enabled (R24). The other fields are a DESIGN CHOICE (assumption
47). -/
def ReactionRec.builtIn : ReactionRec :=
  { trigger := .none, triggerObj := 0, triggerState := .disabled, action := .none, actionObj := 0,
    enabled := false, once := false }

/-- The records of the control area, each with its own commit (section 2.1, 2.2). `ring` is 0 coax
receive, 1 pair receive, 2 coax transmit. -/
inductive RecordId where
  | unit
  | ring (k : Nat)
  | health
  | print
  | line (l : Nat)
  | timer (k : Nat)
  | aging
  | printer (p : Nat)
  | reaction (r : Nat)
  deriving DecidableEq, Repr

/-- A validated commit: the record it is of and the fields it carries. -/
inductive RecordVal where
  | unit (v : UnitRec)
  | ring (k : Nat) (v : RingRec)
  | health (v : HealthRec)
  | print (v : PrintRec)
  | line (l : Nat) (v : LineRec)
  | timer (k : Nat) (v : TimerRec)
  | aging (v : AgingRec)
  | printer (p : Nat) (v : PrinterRec)
  | reaction (r : Nat) (v : ReactionRec)
  deriving DecidableEq, Repr

end Sys2Proof.Machine
end

