-- ==== Sys2Proof/Machine/Triggers.lean ====
section
/-! DEFINITION. The triggers of the reaction table (section 11.3). -/

namespace Sys2Proof.Machine

/-- A trigger, with the object its kind has. -/
inductive Trigger where
  | trunkEnters (t : Nat) (st : TrunkState)
  | stationQuarantined
  | printerStalled (p : Nat)
  | printerEntersReady (p : Nat)
  | jobDone (p : Nat)
  | jobAbandoned (p : Nat)
  | timer (k : Nat)
  | lineRise (l : Nat)
  | lineFall (l : Nat)
  | proxyPoolEmpty
  deriving DecidableEq, Repr

end Sys2Proof.Machine
end

