-- ==== Sys2Proof/Machine/State.lean ====
section
/-! DEFINITION. The state of the JF-312, all of it plain data, unit by unit as spec/00_scope.md's block
table lists it (`Chip`), with buffer memory and the model's own queue of commands (`State`). -/

namespace Sys2Proof.Machine

/-! ### The path unit (chapter 1) -/

/-- The units that fill the private queue, in the circular order of R8. -/
inductive Owner where
  | frame | print | control | event
  deriving DecidableEq, Repr

/-- Event classes 0–7 (section 12.1). -/
inductive EvClass where
  | trunk | station | proxy | job | printer | reaction | control | path
  deriving DecidableEq, Repr

/-- The tables INQUIRE shows, kinds 1–6 (R32). -/
inductive InqKind where
  | stations | proxies | trunks | printers | jobs | timers
  deriving DecidableEq, Repr

/-- What an entry of the private queue is for: the operation the path unit reports back to (R7, R9, R10). -/
inductive Purpose where
  /-- The verdict words of descriptor `index` of engine `e`'s receive ring, for slot `slot` (R45). -/
  | verdictWords (e : Engine) (index slot : Nat)
  /-- The status word of that descriptor (R45). -/
  | statusWord (e : Engine) (index slot : Nat)
  /-- The late header fetch's first step: descriptor words 1–3 (R43). -/
  | descriptorFetch (e : Engine) (slot : Nat)
  /-- The late header fetch's second step: header words from word `first` on (R43). -/
  | headerFetch (e : Engine) (slot first : Nat)
  /-- The fetch of a PRINT_OPEN's first payload word (R131). -/
  | payloadFetch (e : Engine) (slot : Nat)
  /-- A deposit into descriptor `i` of printer ring `p` (R145). -/
  | printerDescriptor (p i : Nat)
  /-- An event record (R176). -/
  | eventRecord
  /-- A producer deposit, with the classes of the records it shows (R176). -/
  | producer (value : Nat) (classes : List EvClass)
  /-- A deposit that counts for nothing when it ends (R180). -/
  | uncounted
  /-- The STATUS snapshot (R31). -/
  | snapshot
  /-- A record of INQUIRE (R32). -/
  | inquiry
  /-- The reply, offered once the entries named have joined the queue (R26). -/
  | reply (after : List Nat)
  /-- A LOAD fetch of words from the control-area offset `off` (R27). -/
  | loadFetch (off : Nat)
  deriving DecidableEq, Repr

/-- An entry's work. A deposit's words each carry a mark, true when struck (R7). An inquiry record's words
are taken when the deposit joins the queue (R32): until then it is `inquiry`. -/
inductive Work where
  | deposit (addr : Nat) (words : List (Word × Bool))
  | fetch (addr count : Nat)
  | inquiry (kind : InqKind) (index addr : Nat)
  deriving DecidableEq, Repr

/-- An entry of the private queue, or one its unit still holds (R7, R8). -/
structure Entry where
  id : Nat
  owner : Owner
  purpose : Purpose
  work : Work
  deriving DecidableEq, Repr

/-- The class of an access: its region and the word's distance from the region's first word (R2). -/
inductive Region where
  | control (off : Nat)
  | receive (e : Engine) (off : Nat)
  | transmit (off : Nat)
  | printer (p off : Nat)
  | plain
  deriving DecidableEq, Repr

/-- A master access, classed when its strobe was asserted (R2). -/
structure Access where
  master : Master
  write : Bool
  addr : Nat
  be : BitVec 2
  data : Word
  region : Region
  deriving DecidableEq, Repr

/-- An access as it stands on the bus-side pins. -/
structure Pins where
  master : Master
  write : Bool
  addr : BusAddr
  be : BitVec 2
  data : Word
  deriving DecidableEq, Repr

/-- An access held by WAIT, and the private cycles it still waits for (R12, R13). -/
structure Stretch where
  access : Access
  owed : Nat
  deriving DecidableEq, Repr

/-- The path unit: the private queue, what each unit waits to add to it, the turn of R8, the stretched
access, the accesses asked for while it holds the bus, oldest first (R14: they cannot begin before it ends;
assumption 3), and the model's own count of entries formed. -/
structure PathUnit where
  queue : List Entry
  waitFrame : List Entry
  waitPrint : List Entry
  waitControl : List Entry
  waitEvent : List Entry
  turn : Owner
  bus : Option Stretch
  asking : List Pins
  serial : Nat
  deriving DecidableEq, Repr

/-! ### The control unit (chapter 2) -/

/-- The commands that may wait for held frames (R62). -/
inductive StationCommand where
  | set | clear | freeProxy
  deriving DecidableEq, Repr

/-- What the command in progress is doing (R26, R27, R62). -/
inductive CommandPhase where
  /-- LOAD: fetches still to be performed, records committed, entries it formed that still wait. -/
  | loading (left count : Nat) (formed : List Nat)
  /-- A station command waiting for the slots `frames` to leave HELD_WAITING, with its A1–A4. -/
  | stationWait (op : StationCommand) (a1 a2 a3 a4 : Word) (frames : List Nat)
  /-- The reply is formed and not yet performed. -/
  | replying
  deriving DecidableEq, Repr

/-- The command in progress. -/
structure Command where
  tag : Octet
  phase : CommandPhase
  deriving DecidableEq, Repr

/-- The control unit. `staging` holds the staging copies by a key of their own (`stagingKey`, and 1–4 for
A1–A4). A ring record's committed flag (R20) is its working copy's being present. The working copies of
line, timer and reaction records stand with the reaction unit. -/
structure ControlUnit where
  staging : Table Word
  unit : UnitRec
  unitCommitted : Bool
  coaxRing : Option RingRec
  pairRing : Option RingRec
  transmitRing : Option RingRec
  health : HealthRec
  print : PrintRec
  aging : AgingRec
  printers : Table PrinterRec
  gateClosed : Bool
  noticeMask : Octet
  recordMask : Octet
  pendingHealth : Option HealthRec
  pendingPrint : Option PrintRec
  pendingAging : Option AgingRec
  pendingLines : Table (Option LineRec)
  pendingTimers : Table (Option TimerRec)
  pendingPrinters : Table (Option PrinterRec)
  pendingReactions : Table (Option ReactionRec)
  awaitingHealth : Option HealthRec
  awaitingPrinters : Table (Option PrinterRec)
  mode : Mode
  command : Option Command
  deriving DecidableEq, Repr

/-! ### The frame unit (chapters 3, 6) -/

/-- A frame context (section 3.3): the descriptor, the two parts of the buffer address, the received
length and the captured header octets, each as far as known. -/
structure Ctx where
  index : Option Nat
  lo : Option Word
  hi : Option Word
  len : Option Word
  octets : Table (Option Octet)
  deriving DecidableEq, Repr

/-- A verdict as the units hand it on, before it is written as words 4–7 (section 3.7). -/
structure Verdict where
  code : Nat := 0
  src : Nat := 0
  dst : Nat := 0
  detail : Nat := 0
  mask : Nat := 0
  pairFlag : Bool := false
  bufferHeld : Bool := false
  job : Nat := 0
  printer : Nat := 0
  reason : Nat := 0
  addr : Option NewAddr := none
  deriving DecidableEq, Repr

/-- The phase of a held frame (section 3.4). -/
inductive Phase where
  | heldWaiting | releasing
  deriving DecidableEq, Repr

/-- A slot of a held list (section 3.4). `id` is the model's own name of the slot. `saved` is bits 13–0 of
the completion as written. The release deposits stand in the private queue or with the frame unit's
waiting entries, under the slot's `id`. -/
structure Slot where
  id : Nat
  index : Nat
  word0 : Nat
  saved : Word
  lo : Option Word
  hi : Option Word
  len : Option Word
  octets : Table (Option Octet)
  payload : Option Word
  phase : Phase
  fixed : Option Verdict
  fetching : Bool
  deriving DecidableEq, Repr

/-- The frame unit: a context and a held list, oldest first, for each receive engine. -/
structure FrameUnit where
  coaxCtx : Ctx
  pairCtx : Ctx
  coaxHeld : List Slot
  pairHeld : List Slot
  deriving DecidableEq, Repr

/-! ### The station unit (chapters 4, 5) -/

/-- Entry kinds, by the codes of the STATIONS record. -/
inductive Kind where
  | empty | legacy | proxy | unit
  deriving DecidableEq, Repr

/-- Presence, by the codes of the STATIONS record. -/
inductive Presence where
  | active | silent | unreachable
  deriving DecidableEq, Repr

/-- A station entry (R49). The proxy map is the entries of kind PROXY: each holds its address and slot. -/
structure Station where
  kind : Kind
  pinned : Bool
  trunk : Nat
  addr : NewAddr
  slot : Nat
  presence : Presence
  quarantined : Bool
  age : Nat
  lastChange : BitVec 32
  homeHearing : BitVec 32
  score : Nat
  openJob : Option Nat
  deriving DecidableEq, Repr

/-- The station unit: the table, the station clock, the exhausted flag of R73, the limits of the last second
boundary (R51), and whether a second boundary is due (the model's own). -/
structure StationUnit where
  limits : AgeLimits
  table : Table Station
  clock : BitVec 32
  exhausted : Bool
  secondDue : Bool
  deriving DecidableEq, Repr

/-! ### The health unit (chapters 7, 8) -/

/-- A trunk record (R114). A countdown of `some 0` has come to its expiry, whose step is still to be
taken. -/
structure Trunk where
  state : TrunkState
  score : Nat
  strikes : Nat
  countdown : Option Nat
  clearCountdown : Option Nat
  forced : Bool
  deriving DecidableEq, Repr

/-- The health unit: four trunk records, the decay count (R102), and whether a decay tick is due (the
model's own). -/
structure HealthUnit where
  trunks : Table Trunk
  decayCount : Nat
  decayDue : Bool
  deriving DecidableEq, Repr

/-! ### The print unit (chapters 9, 10) -/

/-- Job states, by the codes of the JOBS record. -/
inductive JobState where
  | free | waiting | printing | closing | suspended
  deriving DecidableEq, Repr

/-- Whether, and how, a job has been closed (R133). -/
inductive Closed where
  | no | close | timeout
  deriving DecidableEq, Repr

/-- Abandon reasons, by the codes of R142. -/
inductive AbandonReason where
  | aborted | cancelled | reopened | evicted | removed | quarantined | freed | isolated
  deriving DecidableEq, Repr

/-- A job record (R133). A countdown of `some 0` has come to its expiry, whose step is still to be taken.
`resume` and `trunk` mean something in a SUSPENDED job only. -/
structure Job where
  state : JobState
  resume : JobState
  owner : Nat
  printer : Nat
  closed : Closed
  reason : Option AbandonReason
  seq : Octet
  spool : List Nat
  accepted : Nat
  printed : Nat
  idle : Option Nat
  grace : Option Nat
  trunk : Nat
  deriving DecidableEq, Repr

/-- A held spool entry (R136). `ringIndex` and `ringCount` are the descriptor index and the producer count
at which it was last deposited; `stamp` is the model's own order of deposits, which does not wrap. -/
structure SpoolEntry where
  addr : Nat
  len : Nat
  job : Nat
  srcRing : Nat
  srcIndex : Nat
  inRing : Bool
  ringIndex : Option Nat
  ringCount : Word
  stamp : Nat
  deriving DecidableEq, Repr

/-- Printer states, by the codes of the PRINTERS record. -/
inductive PrinterState where
  | disabled | ready | stalled | held
  deriving DecidableEq, Repr

/-- What the ring view keeps of one descriptor (R144). -/
structure Desc where
  entry : Option Nat
  completed : Bool
  printed : Word
  deriving DecidableEq, Repr

/-- A printer: its state, its ring view (R144), its claim and its wait queue (R141). The view's base and
size are those of the working printer record. -/
structure Printer where
  state : PrinterState
  produced : Word
  done : Word
  descs : Table Desc
  claim : Option Nat
  queue : List Nat
  deriving DecidableEq, Repr

/-- The print unit: 32 jobs, 128 spool entries (none is free), eight printers, four pair toggles. -/
structure PrintUnit where
  jobs : Table Job
  spool : Table (Option SpoolEntry)
  printers : Table Printer
  toggles : Table Bool
  deriving DecidableEq, Repr

/-! ### The reaction unit (chapter 11) -/

/-- A timer (R163): RUNNING with count 0 has come to its expiry, whose step is still to be taken. -/
structure Timer where
  record : TimerRec
  running : Bool
  count : Nat
  expiries : Word
  deriving DecidableEq, Repr

/-- A line: its record, kept level and sampled level, true when active (R167, R169). -/
structure Line where
  record : LineRec
  kept : Level
  sampled : Bool
  deriving DecidableEq, Repr

/-- The reaction unit: four timers, eight lines, the levels it drives on L0–L7, sixteen reactions.
`received` is the model's own: the triggers received within a trunk state change and not yet taken (R123,
assumption 57); between steps it is empty. -/
structure ReactionUnit where
  timers : Table Timer
  lines : Table Line
  driven : List Level
  reactions : Table ReactionRec
  received : List Trigger
  deriving DecidableEq, Repr

/-! ### The event unit (chapter 12) -/

/-- The event unit. `unread` holds the classes of the records from the consumer up to the shown producer;
the count of a class (R179) is how often it stands there. `notice` is true while NOTICE is driven low. -/
structure EventUnit where
  producer : Nat
  shown : Nat
  consumer : Nat
  sequence : Nat
  unread : List EvClass
  overflow : Octet
  lost : Nat
  notice : Bool
  deriving DecidableEq, Repr

/-! ### The part, and the machine -/

/-- The part: whether RESET is asserted, the strap value sampled, the levels the unit holds the general
lines' pins at, and the eight units. -/
structure Chip where
  resetAsserted : Bool
  cab : BitVec 7
  pins : Octet
  path : PathUnit
  ctl : ControlUnit
  frm : FrameUnit
  stn : StationUnit
  hlth : HealthUnit
  prt : PrintUnit
  rct : ReactionUnit
  evt : EventUnit
  deriving DecidableEq, Repr

/-- The machine: buffer memory by octets, the word last returned to a master on D15–D0, the count of free
values used (the model's own), the part, and the commands waiting (the model's own). -/
structure State where
  mem : List Host.Cell
  dataOut : Word
  freeCount : Nat
  chip : Chip
  pending : List Instr
  deriving DecidableEq, Repr

/-- The ways the machine stops: none, since the manual gives every command an effect. -/
inductive Fault where
  deriving DecidableEq, Repr

/-- The commands the model gives no meaning. -/
inductive Refusal where
  /-- Raised by exec for a row of the opcode table that has no meaning yet. Safe: the model stops. -/
  | notModelled (mnemonic : String)
  deriving DecidableEq, Repr

/-! ### Values an unlisted table index reads as -/

/-- An EMPTY entry with the values of R50. -/
def Station.blank : Station :=
  { kind := .empty, pinned := false, trunk := 0, addr := 0, slot := 0, presence := .active,
    quarantined := false, age := 0, lastChange := 0, homeHearing := 0, score := 0, openJob := none }

/-- A DISABLED trunk (R114). -/
def Trunk.absent : Trunk :=
  { state := .disabled, score := 0, strikes := 0, countdown := none, clearCountdown := none,
    forced := false }

/-- A trunk just brought into service (R114, R124). -/
def Trunk.fresh : Trunk := { Trunk.absent with state := .inService }

/-- A FREE job record (R133). -/
def Job.blank : Job :=
  { state := .free, resume := .free, owner := 0, printer := 0, closed := .no, reason := none, seq := 0,
    spool := [], accepted := 0, printed := 0, idle := none, grace := none, trunk := 0 }

/-- A descriptor that holds no entry (R144). -/
def Desc.blank : Desc := { entry := none, completed := false, printed := 0 }

/-- A DISABLED printer, its view starting, unclaimed, its queue empty (R152). -/
def Printer.blank : Printer :=
  { state := .disabled, produced := 0, done := 0, descs := [], claim := none, queue := [] }

/-- A timer after pin reset (R163). -/
def Timer.blank : Timer := { record := TimerRec.builtIn, running := false, count := 0, expiries := 0 }

/-- A line after pin reset: UNUSED, kept and sampled level inactive (R167). -/
def Line.blank : Line := { record := LineRec.builtIn, kept := .low, sampled := false }

/-- An empty context (section 3.3). -/
def Ctx.blank : Ctx := { index := none, lo := none, hi := none, len := none, octets := [] }

/-! ### The values after pin reset -/

/-- R15: the queue empty, nothing waiting, the turn at the frame unit. -/
def PathUnit.reset : PathUnit :=
  { queue := [], waitFrame := [], waitPrint := [], waitControl := [], waitEvent := [], turn := .frame,
    bus := none, asking := [], serial := 0 }

/-- R24. -/
def ControlUnit.reset : ControlUnit :=
  { staging := [], unit := UnitRec.builtIn, unitCommitted := false, coaxRing := none, pairRing := none,
    transmitRing := none, health := HealthRec.builtIn, print := PrintRec.builtIn,
    aging := AgingRec.builtIn, printers := [], gateClosed := false, noticeMask := 0, recordMask := 255,
    pendingHealth := none, pendingPrint := none, pendingAging := none, pendingLines := [],
    pendingTimers := [], pendingPrinters := [], pendingReactions := [], awaitingHealth := none,
    awaitingPrinters := [], mode := .pass, command := none }

/-- R48. -/
def FrameUnit.reset : FrameUnit :=
  { coaxCtx := Ctx.blank, pairCtx := Ctx.blank, coaxHeld := [], pairHeld := [] }

/-- R50, R51, R79. -/
def StationUnit.reset : StationUnit :=
  { limits := AgingRec.builtIn.limits, table := [], clock := 0, exhausted := false, secondDue := false }

/-- R113, R114: trunk 0 IN_SERVICE, trunks 1–3 DISABLED. -/
def HealthUnit.reset : HealthUnit :=
  { trunks := [(0, Trunk.fresh)], decayCount := 0, decayDue := false }

/-- R150, R152. -/
def PrintUnit.reset : PrintUnit := { jobs := [], spool := [], printers := [], toggles := [] }

/-- R163, R167, R171. -/
def ReactionUnit.reset : ReactionUnit :=
  { timers := [], lines := [],
    driven := [.undriven, .undriven, .undriven, .undriven, .undriven, .undriven, .undriven, .undriven],
    reactions := [], received := [] }

/-- R180. -/
def EventUnit.reset : EventUnit :=
  { producer := 0, shown := 0, consumer := 0, sequence := 0, unread := [], overflow := 0, lost := 0,
    notice := false }

/-- The part after pin reset, RESET released. The strap value and the pins' levels are the unit's: 0 here
is a DESIGN CHOICE (assumption 5). -/
def Chip.reset : Chip :=
  { resetAsserted := false, cab := 0, pins := 0, path := PathUnit.reset, ctl := ControlUnit.reset,
    frm := FrameUnit.reset, stn := StationUnit.reset, hlth := HealthUnit.reset, prt := PrintUnit.reset,
    rct := ReactionUnit.reset, evt := EventUnit.reset }

/-- The machine right after reset: the part as R24 and the chapters give it, memory with nothing listed
(assumption 4), no command waiting. -/
def State.reset : State :=
  { mem := [], dataOut := 0, freeCount := 0, chip := Chip.reset, pending := [] }

end Sys2Proof.Machine
end

