-- ==== Sys2Proof/Machine/Regs.lean ====
section
/-! DEFINITION. The named reads and updates of the part's tables, copies and lists. Each register has one
home, and everything else reads and writes it through these. -/

namespace Sys2Proof.Machine

/-! ### Updates of one unit -/

def Chip.withPath (v : PathUnit) (c : Chip) : Chip := { c with path := v }
def Chip.withCtl (v : ControlUnit) (c : Chip) : Chip := { c with ctl := v }
def Chip.withFrm (v : FrameUnit) (c : Chip) : Chip := { c with frm := v }
def Chip.withStn (v : StationUnit) (c : Chip) : Chip := { c with stn := v }
def Chip.withHlth (v : HealthUnit) (c : Chip) : Chip := { c with hlth := v }
def Chip.withPrt (v : PrintUnit) (c : Chip) : Chip := { c with prt := v }
def Chip.withRct (v : ReactionUnit) (c : Chip) : Chip := { c with rct := v }
def Chip.withEvt (v : EventUnit) (c : Chip) : Chip := { c with evt := v }
def Chip.withPins (v : Octet) (c : Chip) : Chip := { c with pins := v }

/-! ### Stations, trunks -/

/-- Station entry `n` (R49). -/
def Chip.station (c : Chip) (n : Nat) : Station := tget Station.blank c.stn.table n

def Chip.putStation (n : Nat) (v : Station) (c : Chip) : Chip :=
  c.withStn { c.stn with table := tset Station.blank c.stn.table n v }

/-- Trunk record `t` (R114). -/
def Chip.trunk (c : Chip) (t : Nat) : Trunk := tget Trunk.absent c.hlth.trunks t

def Chip.putTrunk (t : Nat) (v : Trunk) (c : Chip) : Chip :=
  c.withHlth { c.hlth with trunks := tset Trunk.absent c.hlth.trunks t v }

/-! ### Jobs, the spool, printers -/

/-- Job record `j` (R133). -/
def Chip.job (c : Chip) (j : Nat) : Job := tget Job.blank c.prt.jobs j

def Chip.putJob (j : Nat) (v : Job) (c : Chip) : Chip :=
  c.withPrt { c.prt with jobs := tset Job.blank c.prt.jobs j v }

/-- Spool entry `i`, none when it is free (R136). -/
def Chip.spoolEntry (c : Chip) (i : Nat) : Option SpoolEntry := tget none c.prt.spool i

def Chip.putSpool (i : Nat) (v : Option SpoolEntry) (c : Chip) : Chip :=
  c.withPrt { c.prt with spool := tset none c.prt.spool i v }

/-- Printer `p` (R141, R144, R152). -/
def Chip.printer (c : Chip) (p : Nat) : Printer := tget Printer.blank c.prt.printers p

def Chip.putPrinter (p : Nat) (v : Printer) (c : Chip) : Chip :=
  c.withPrt { c.prt with printers := tset Printer.blank c.prt.printers p v }

/-- Pair `k`'s toggle (section 10.5). -/
def Chip.toggle (c : Chip) (k : Nat) : Bool := tget false c.prt.toggles k

def Chip.putToggle (k : Nat) (v : Bool) (c : Chip) : Chip :=
  c.withPrt { c.prt with toggles := tset false c.prt.toggles k v }

/-- The view's descriptor `i` of printer `p` (R144). -/
def Chip.desc (c : Chip) (p i : Nat) : Desc := tget Desc.blank (c.printer p).descs i

def Chip.putDesc (p i : Nat) (v : Desc) (c : Chip) : Chip :=
  c.putPrinter p { c.printer p with descs := tset Desc.blank (c.printer p).descs i v }

/-! ### Timers, lines, reactions -/

def Chip.timer (c : Chip) (k : Nat) : Timer := tget Timer.blank c.rct.timers k

def Chip.putTimer (k : Nat) (v : Timer) (c : Chip) : Chip :=
  c.withRct { c.rct with timers := tset Timer.blank c.rct.timers k v }

def Chip.line (c : Chip) (l : Nat) : Line := tget Line.blank c.rct.lines l

def Chip.putLine (l : Nat) (v : Line) (c : Chip) : Chip :=
  c.withRct { c.rct with lines := tset Line.blank c.rct.lines l v }

/-- The working reaction `r` (R171). -/
def Chip.reaction (c : Chip) (r : Nat) : ReactionRec := tget ReactionRec.builtIn c.rct.reactions r

def Chip.putReaction (r : Nat) (v : ReactionRec) (c : Chip) : Chip :=
  c.withRct { c.rct with reactions := tset ReactionRec.builtIn c.rct.reactions r v }

/-! ### Records of the control area -/

/-- The working printer record `p` (section 10.2). -/
def Chip.printerRec (c : Chip) (p : Nat) : PrinterRec := tget PrinterRec.builtIn c.ctl.printers p

def Chip.putPrinterRec (p : Nat) (v : PrinterRec) (c : Chip) : Chip :=
  c.withCtl { c.ctl with printers := tset PrinterRec.builtIn c.ctl.printers p v }

/-- The staging copy under a key (R18). -/
def Chip.staged (c : Chip) (key : Nat) : Word := tget 0 c.ctl.staging key

def Chip.stage (key : Nat) (v : Word) (c : Chip) : Chip :=
  c.withCtl { c.ctl with staging := tset 0 c.ctl.staging key v }

/-- The commit of printer record `p` that awaits its boundary (R21). -/
def Chip.awaitingPrinter (c : Chip) (p : Nat) : Option PrinterRec := tget none c.ctl.awaitingPrinters p

def Chip.putAwaitingPrinter (p : Nat) (v : Option PrinterRec) (c : Chip) : Chip :=
  c.withCtl { c.ctl with awaitingPrinters := tset none c.ctl.awaitingPrinters p v }

/-- The working ring record of engine `e`'s receive ring (R20). -/
def Chip.receiveRing (c : Chip) : Engine → Option RingRec
  | .coax => c.ctl.coaxRing
  | .pair => c.ctl.pairRing

def Chip.setMode (m : Mode) (c : Chip) : Chip := c.withCtl { c.ctl with mode := m }

def Chip.setCommand (v : Option Command) (c : Chip) : Chip := c.withCtl { c.ctl with command := v }

/-! ### Frame contexts and held lists -/

/-- Engine `e`'s frame context (section 3.3). -/
def Chip.ctx (c : Chip) : Engine → Ctx
  | .coax => c.frm.coaxCtx
  | .pair => c.frm.pairCtx

def Chip.putCtx (e : Engine) (v : Ctx) (c : Chip) : Chip :=
  match e with
  | .coax => c.withFrm { c.frm with coaxCtx := v }
  | .pair => c.withFrm { c.frm with pairCtx := v }

/-- Engine `e`'s held list, oldest first (section 3.4). -/
def Chip.held (c : Chip) : Engine → List Slot
  | .coax => c.frm.coaxHeld
  | .pair => c.frm.pairHeld

def Chip.putHeld (e : Engine) (v : List Slot) (c : Chip) : Chip :=
  match e with
  | .coax => c.withFrm { c.frm with coaxHeld := v }
  | .pair => c.withFrm { c.frm with pairHeld := v }

/-! ### The entries each unit waits to add to the private queue -/

/-- What unit `o` waits to add, oldest first (R8). -/
def Chip.waiting (c : Chip) : Owner → List Entry
  | .frame => c.path.waitFrame
  | .print => c.path.waitPrint
  | .control => c.path.waitControl
  | .event => c.path.waitEvent

def Chip.putWaiting (o : Owner) (v : List Entry) (c : Chip) : Chip :=
  match o with
  | .frame => c.withPath { c.path with waitFrame := v }
  | .print => c.withPath { c.path with waitPrint := v }
  | .control => c.withPath { c.path with waitControl := v }
  | .event => c.withPath { c.path with waitEvent := v }

end Sys2Proof.Machine
end

