-- ==== Sys2Proof/Machine/Operands.lean ====
section
/-! DEFINITION. What an access is about: the control area's place and layout (R1, R17), the region an
address falls in (R2), the forms of a write (R4, R5), and the fields of the status words (section 3.1). -/

namespace Sys2Proof.Machine

/-- The first word of the control area: CAB × 8192 (R1). -/
def Chip.base (c : Chip) : Nat := c.cab.toNat * Config.controlWords

/-! ### Layout of the configurable part (R17) -/

/-- R: the size of the event ring in records, 2^(5+c). -/
def UnitRec.ringSize (u : UnitRec) : Nat := 2 ^ (5 + u.c)

/-- First word of the reaction records. -/
def UnitRec.reactionWord (u : UnitRec) : Nat := 128 + 16 * u.np

/-- E: first word of the event ring. -/
def UnitRec.eventWord (u : UnitRec) : Nat := 128 + 16 * u.np + 4 * u.nr

/-- I: first word of the inquiry area. -/
def UnitRec.inquiryWord (u : UnitRec) : Nat := u.eventWord + 4 * u.ringSize

/-- First word of a record (section 2.1, R17). -/
def recordFirst (u : UnitRec) : RecordId → Nat
  | .unit => 32
  | .ring k => 48 + 4 * k
  | .health => 64
  | .print => 80
  | .line l => 88 + 2 * l
  | .timer k => 104 + 2 * k
  | .aging => 112
  | .printer p => 128 + 16 * p
  | .reaction r => u.reactionWord + 4 * r

/-- Length of a record in words. -/
def recordLength : RecordId → Nat
  | .unit => 16
  | .ring _ => 4
  | .health => 16
  | .print => 8
  | .line _ => 2
  | .timer _ => 2
  | .aging => 8
  | .printer _ => 16
  | .reaction _ => 4

/-- The record a control-area word belongs to by the layout in force, and its place in the record. -/
def recordAt (u : UnitRec) (off : Nat) : Option (RecordId × Nat) :=
  if off < 32 then none
  else if off < 48 then some (.unit, off - 32)
  else if off < 60 then some (.ring ((off - 48) / 4), (off - 48) % 4)
  else if off < 64 then none
  else if off < 80 then some (.health, off - 64)
  else if off < 88 then some (.print, off - 80)
  else if off < 104 then some (.line ((off - 88) / 2), (off - 88) % 2)
  else if off < 112 then some (.timer ((off - 104) / 2), (off - 104) % 2)
  else if off < 120 then some (.aging, off - 112)
  else if off < 128 then none
  else if off < u.reactionWord then some (.printer ((off - 128) / 16), (off - 128) % 16)
  else if off < u.eventWord then
    some (.reaction ((off - u.reactionWord) / 4), (off - u.reactionWord) % 4)
  else none

/-- The key of the staging copy of a record's word: printer and reaction records keep one copy by record
number, whatever the layout (R17). -/
def stagingKey : RecordId → Nat → Nat
  | .printer p, i => 1024 + 16 * p + i
  | .reaction r, i => 2048 + 4 * r + i
  | .unit, i => 32 + i
  | .ring k, i => 48 + 4 * k + i
  | .health, i => 64 + i
  | .print, i => 80 + i
  | .line l, i => 88 + 2 * l + i
  | .timer k, i => 104 + 2 * k + i
  | .aging, i => 112 + i

/-- The words the control unit takes processor writes from (R5, R16). -/
def takesWrites (u : UnitRec) (off : Nat) : Bool :=
  decide (off ≤ 4) || (decide (25 ≤ off) && decide (off ≤ 28)) || (recordAt u off).isSome

/-! ### Regions (R2) -/

/-- Words of a ring: 8 for each of its 2^e descriptors. -/
def ringWords (e : Nat) : Nat := 8 * 2 ^ e

/-- An address lies in a run of `len` words from `base`. -/
def inRun (base len a : Nat) : Bool := decide (base ≤ a) && decide (a < base + len)

/-- Printer `p` has a ring region in force: its record is in force and marks it enabled. -/
def Chip.printerRegion (c : Chip) (p : Nat) : Bool :=
  decide (p < c.ctl.unit.np) && (c.printerRec p).enabled

/-- An address lies in a ring's region in force. -/
def inRing (r : Option RingRec) (a : Nat) : Bool :=
  match r with
  | none => false
  | some v => inRun v.base (ringWords v.e) a

/-- The distance of an address from a ring's base. -/
def ringOffset (r : Option RingRec) (a : Nat) : Nat :=
  match r with
  | none => 0
  | some v => a - v.base

/-- The region of a word address: the first in R2's order that contains it. -/
def Chip.classify (c : Chip) (a : Nat) : Region :=
  if inRun c.base Config.controlWords a then .control (a - c.base)
  else if inRing c.ctl.coaxRing a then .receive .coax (ringOffset c.ctl.coaxRing a)
  else if inRing c.ctl.pairRing a then .receive .pair (ringOffset c.ctl.pairRing a)
  else if inRing c.ctl.transmitRing a then .transmit (ringOffset c.ctl.transmitRing a)
  else
    match (List.range 8).find? fun p =>
        c.printerRegion p && inRun (c.printerRec p).base (ringWords (c.printerRec p).e) a with
    | some p => .printer p (a - (c.printerRec p).base)
    | none => .plain

/-! ### The forms of an access (R4, R5) -/

/-- A write with both byte enables. -/
def fullWord (be : BitVec 2) : Bool := decide (be = 3)

/-- A write with no byte enable: it changes no word and is shown to no unit (R4). -/
def noOctet (be : BitVec 2) : Bool := decide (be = 0)

/-- The engine a master is, when it is a receive engine. -/
def masterEngine : Master → Option Engine
  | .coaxEngine => some .coax
  | .pairEngine => some .pair
  | _ => none

/-- The master a receive engine is. -/
def engineMaster : Engine → Master
  | .coax => .coaxEngine
  | .pair => .pairEngine

/-- A master's code on MC1–MC0. -/
def masterCode : Master → Nat
  | .processor => 0
  | .coaxEngine => 1
  | .pairEngine => 2
  | .printEngine => 3

/-- An engine's code in events: coax 1, pair 2 (R175). -/
def engineCode : Engine → Nat
  | .coax => 1
  | .pair => 2

/-! ### Status words (section 3.1) -/

/-- Bits 15–14. PROCESSOR (or DONE) is 1; 0, 2 and 3 read as ENGINE in a master's write. -/
def ownerField (w : Word) : Nat := bitsOf w 14 2

/-- A status word with its owner field replaced. -/
def withOwner (w : Word) (o : Nat) : Word := wordNat (w.toNat % 16384 + o % 4 * 16384)

/-- Bits 13–12, the trunk of a coax completion. -/
def trunkField (w : Word) : Nat := bitsOf w 12 2

/-- Bits 11–8. -/
def errorField (w : Word) : Nat := bitsOf w 8 4

/-- A coax error kind: 8–15 read as OVERRUN (6). -/
def coaxError (w : Word) : Nat := if errorField w < 8 then errorField w else 6

/-- A pair error kind: 5–15 read as OVERRUN (4). -/
def pairError (w : Word) : Nat := if errorField w < 5 then errorField w else 4

/-- A printer error: NONE 0, PAPER_OUT 1, OFFLINE 2, FAULT 3, FLUSHED 4, and 5–15 read as FAULT. -/
def printerError (w : Word) : Nat := if errorField w < 5 then errorField w else 3

/-- A trunk is connected when it is IN_SERVICE, WATCH or TRIAL. -/
def TrunkState.connected : TrunkState → Bool
  | .inService => true
  | .watch => true
  | .trial => true
  | _ => false

/-- A trunk is cut when it is ISOLATED or LOCKED_OUT. -/
def TrunkState.cut : TrunkState → Bool
  | .isolated => true
  | .lockedOut => true
  | _ => false

/-- Trunk `t` is present and connected: numbered below NT, in a connected state. -/
def Chip.trunkUp (c : Chip) (t : Nat) : Bool :=
  decide (t < c.ctl.unit.nt) && (c.trunk t).state.connected

end Sys2Proof.Machine
end

