-- ==== Sys2Proof/Machine/Flags.lean ====
section
/-! DEFINITION. The codes, flags and pin levels: event classes and their masks, class counts and NOTICE
(R179), the overflow set (R178), the codes that status words, inquiry and event records show, and the
level each general line is driven to (R168). -/

namespace Sys2Proof.Machine

/-! ### Codes -/

def EvClass.code : EvClass → Nat
  | .trunk => 0
  | .station => 1
  | .proxy => 2
  | .job => 3
  | .printer => 4
  | .reaction => 5
  | .control => 6
  | .path => 7

def TrunkState.code : TrunkState → Nat
  | .disabled => 0
  | .inService => 1
  | .watch => 2
  | .isolated => 3
  | .trial => 4
  | .lockedOut => 5

def Mode.code : Mode → Nat
  | .pass => 0
  | .loading => 1
  | .run => 2

def Kind.code : Kind → Nat
  | .empty => 0
  | .legacy => 1
  | .proxy => 2
  | .unit => 3

def Presence.code : Presence → Nat
  | .active => 0
  | .silent => 1
  | .unreachable => 2

def PrinterState.code : PrinterState → Nat
  | .disabled => 0
  | .ready => 1
  | .stalled => 2
  | .held => 3

def PairMode.code : PairMode → Nat
  | .independent => 0
  | .failover => 1
  | .alternate => 2

def JobState.code : JobState → Nat
  | .free => 0
  | .waiting => 1
  | .printing => 2
  | .closing => 3
  | .suspended => 4

def AbandonReason.code : AbandonReason → Nat
  | .aborted => 1
  | .cancelled => 2
  | .reopened => 3
  | .evicted => 4
  | .removed => 5
  | .quarantined => 6
  | .freed => 7
  | .isolated => 8

def TriggerKind.code : TriggerKind → Nat
  | .none => 0
  | .trunkEnters => 1
  | .stationQuarantined => 2
  | .printerStalled => 3
  | .printerEntersReady => 4
  | .jobDone => 5
  | .jobAbandoned => 6
  | .timer => 7
  | .lineRise => 8
  | .lineFall => 9
  | .proxyPoolEmpty => 10

/-- Phases in VERDICT_DISCARDED: HELD_WAITING 1, RELEASING 2 (R175). -/
def Phase.code : Phase → Nat
  | .heldWaiting => 1
  | .releasing => 2

/-! ### Event masks, counts, NOTICE -/

/-- A class mask holds a class: one bit per class, classes 0–7 in the low octet (section 2.1). -/
def maskHas (m : Octet) (k : EvClass) : Bool := m.getLsbD k.code

/-- A class mask with a class added. -/
def maskAdd (m : Octet) (k : EvClass) : Octet := m ||| BitVec.ofNat 8 (2 ^ k.code)

/-- The count of a class: its records written and not yet consumed (R179). -/
def EventUnit.classCount (v : EventUnit) (k : EvClass) : Nat := v.unread.count k

/-- NOTICE is driven low while a class of the notice mask has a count above 0 (R179). -/
def noticeLow (unread : List EvClass) (mask : Octet) : Bool := unread.any fun k => maskHas mask k

/-- NOTICE re-driven (R179). -/
def redriveNotice (c : Chip) : Chip :=
  c.withEvt { c.evt with notice := noticeLow c.evt.unread c.ctl.noticeMask }

/-! ### Pin levels -/

/-- The active level of a line: HIGH when its polarity bit is 0, LOW when it is 1 (R167). -/
def LineRec.activeLevel (r : LineRec) : Level := if r.activeLow then .low else .high

/-- The other level. -/
def LineRec.inactiveLevel (r : LineRec) : Level := if r.activeLow then .high else .low

/-- The active or the inactive level. -/
def LineRec.levelOf (r : LineRec) (active : Bool) : Level :=
  if active then r.activeLevel else r.inactiveLevel

/-- The level line `v` is driven to, by its function and the mode (R168). -/
def driveLevel (c : Chip) (v : Line) : Level :=
  match v.record.fn with
  | .unused => .undriven
  | .input => .undriven
  | .printerReady => .undriven
  | .output => if c.ctl.mode = .run then v.kept else v.record.rest
  | .relay =>
    v.record.levelOf (decide (c.ctl.mode = .run) && (c.trunk v.record.obj).state.cut)
  | .trunkLamp =>
    if c.ctl.mode = .run then v.record.levelOf (decide ((c.trunk v.record.obj).state ≠ .inService))
    else v.record.rest
  | .printerLamp =>
    if c.ctl.mode = .run then
      v.record.levelOf (decide ((c.printer v.record.obj).state = .stalled) ||
        decide ((c.printer v.record.obj).state = .held))
    else v.record.rest

/-- Every line's pin driven by its function, the mode and the states (R168). -/
def redriveLines (c : Chip) : Chip :=
  c.withRct { c.rct with driven := (List.range 8).map fun l => driveLevel c (c.line l) }

/-- The level line `l` is driven to now. -/
def Chip.drive (c : Chip) (l : Nat) : Level := c.rct.driven.getD l .undriven

/-- Line `l`'s pin is high: as the part drives it, or as the unit holds it (R31). -/
def Chip.pinHigh (c : Chip) (l : Nat) : Bool :=
  match c.drive l with
  | .low => false
  | .high => true
  | .undriven => c.pins.getLsbD l

/-- Line `l`'s pin read through its polarity: true when active (R169). -/
def Chip.pinActive (c : Chip) (l : Nat) : Bool :=
  if (c.line l).record.activeLow then !c.pinHigh l else c.pinHigh l

/-- A function that samples its pin (R169). -/
def LineFn.samples : LineFn → Bool
  | .input => true
  | .printerReady => true
  | _ => false

/-- A number of one bit per line. -/
def lineBits (f : Nat → Bool) : Nat := ((List.range 8).map fun l => bitNat (f l) * 2 ^ l).sum

end Sys2Proof.Machine
end

