-- ==== Sys2Proof/Machine/Inquiry.lean ====
section
/-! DEFINITION. The four-word records INQUIRE shows (R63, R64, R127, R151, R162, R166), each taken from
the part as it stands. -/

namespace Sys2Proof.Machine

/-- Ticks as seconds rounded up (R127). -/
def secondsUp (n : Nat) : Nat := (n + 99) / 100

/-- A countdown in seconds rounded up, 0 when absent. -/
def countdownSeconds (n : Option Nat) : Nat := secondsUp (n.getD 0)

/-- The PROXY entry that holds proxy map slot `k`: a slot is in use exactly when one names it (R69). -/
def Chip.slotHolder (c : Chip) (k : Nat) : Option Nat :=
  (List.range 255).find? fun n =>
    decide ((c.station n).kind = .proxy) && decide ((c.station n).slot = k)

/-- A STATIONS record (R63). -/
def stationsRecord (c : Chip) (n : Nat) : List Word :=
  let e := c.station n
  let trunk := if e.kind = .legacy then e.trunk else 0
  let open7 := match e.openJob with
    | none => 0
    | some j => 128 + j % 32
  let last :=
    if e.kind = .legacy then min 65535 ((c.stn.clock - e.lastChange).toNat / 100)
    else if e.kind = .proxy then e.slot
    else 0
  [octetPair n (e.kind.code + 4 * bitNat e.pinned + 8 * trunk + 32 * e.presence.code +
      128 * bitNat e.quarantined),
    wordNat e.age, octetPair e.score open7, wordNat last]

/-- A PROXIES record (R64). -/
def proxiesRecord (c : Chip) (k : Nat) : List Word :=
  match c.slotHolder k with
  | none => [0, 0, 0, 0]
  | some n => octetPair n (1 + 2 * bitNat (c.station n).pinned) :: addrWords (c.station n).addr

/-- A TRUNKS record (R127). -/
def trunksRecord (c : Chip) (t : Nat) : List Word :=
  let r := c.trunk t
  [octetPair t (r.state.code + 8 * bitNat r.forced + 16 * r.strikes), wordNat r.score,
    wordNat (countdownSeconds r.countdown), wordNat (countdownSeconds r.clearCountdown)]

/-- The even printer of a printer's pair. -/
def evenOf (p : Nat) : Nat := p / 2 * 2

/-- A PRINTERS record (R162). -/
def printersRecord (c : Chip) (p : Nat) : List Word :=
  if p < c.ctl.unit.np then
    let v := c.printer p
    let r := c.printerRec (evenOf p)
    [octetPair p (v.state.code + 4 * r.pairMode.code + 16 * bitNat r.swap +
        32 * bitNat (c.toggle (p / 2)) + 64 * bitNat (c.awaitingPrinter p).isSome +
        128 * bitNat v.claim.isSome),
      octetPair (v.claim.getD 0) v.queue.length, v.produced, v.done]
  else [octetPair p 0, 0, 0, 0]

/-- A JOBS record (R151). -/
def jobsRecord (c : Chip) (j : Nat) : List Word :=
  let v := c.job j
  if v.state = .free then [octetPair j 0, 0, 0, 0]
  else
    let resume := if v.state = .suspended then v.resume.code else 0
    [octetPair (v.printer * 32 + j) (v.state.code + 8 * resume + 32 * bitNat (decide (v.closed ≠ .no)) +
        64 * bitNat v.reason.isSome + 128 * bitNat (decide ((c.printer v.printer).claim = some j))),
      octetPair v.owner v.seq.toNat, wordNat v.accepted, wordNat v.printed]

/-- A TIMERS record (R166). -/
def timersRecord (c : Chip) (k : Nat) : List Word :=
  let v := c.timer k
  [octetPair k (bitNat v.running + 2 * bitNat v.record.repeats), wordNat v.record.period,
    wordNat v.count, v.expiries]

/-- The record of index `i` of a table (R32). -/
def inquiryRecord (c : Chip) (k : InqKind) (i : Nat) : List Word :=
  match k with
  | .stations => stationsRecord c i
  | .proxies => proxiesRecord c i
  | .trunks => trunksRecord c i
  | .printers => printersRecord c i
  | .jobs => jobsRecord c i
  | .timers => timersRecord c i

end Sys2Proof.Machine
end

