-- ==== Sys2Proof/Machine/Ops.lean ====
section
/-! DEFINITION. The shared operations: buffer memory by words (R4, R5, R9), the private queue's entries,
their joining, waiting, striking and withdrawal (R7, R8, R10, R11), and the forming of event records
(R175 to R178). -/

namespace Sys2Proof.Machine

/-- What gives a trigger to the reaction table (R172). The operations that change state are told by it
what a trigger of theirs fires, so that a chain's depth (R174) is the caller's. -/
abbrev Give := Trigger → Chip → Chip

/-! ### Buffer memory -/

/-- The octet at an octet address; one nothing has written reads as 0 (DESIGN CHOICE, assumption 4). -/
def readOctet (m : List Host.Cell) (k : Nat) : Octet := tget (0 : Octet) m k

/-- Memory with one octet written. -/
def writeOctet (m : List Host.Cell) (k : Nat) (v : Octet) : List Host.Cell := tset (0 : Octet) m k v

/-- Memory's canonical form. -/
def Memory.wf (m : List Host.Cell) : Bool := tableOk (0 : Octet) m

/-- The word at a word address, taken modulo the memory's size (assumption 14). -/
def readWord (m : List Host.Cell) (a : Nat) : Word :=
  wordOf (readOctet m (2 * (a % Config.memoryWords))) (readOctet m (2 * (a % Config.memoryWords) + 1))

/-- Memory with the octets of a word that the byte enables select written (R4, R5). -/
def writeMasked (m : List Host.Cell) (a : Nat) (be : BitVec 2) (d : Word) : List Host.Cell :=
  let k := 2 * (a % Config.memoryWords)
  let m := if be.getLsbD 1 then writeOctet m k (hiOctet d) else m
  if be.getLsbD 0 then writeOctet m (k + 1) (loOctet d) else m

/-- Memory with a full word written. -/
def writeWord (m : List Host.Cell) (a : Nat) (d : Word) : List Host.Cell := writeMasked m a 3 d

/-- A run of words read from memory, in address order (R9). -/
def readRun (m : List Host.Cell) (a : Nat) : Nat → List Word
  | 0 => []
  | n + 1 => readWord m a :: readRun m (a + 1) n

/-- The first `limit` unstruck words of a deposit's run written, in address order; struck words are
skipped (R9, R15). -/
def writeRun (m : List Host.Cell) (a : Nat) : List (Word × Bool) → Nat → List Host.Cell
  | [], _ => m
  | (_, true) :: ws, limit => writeRun m (a + 1) ws limit
  | (_, false) :: _, 0 => m
  | (d, false) :: ws, limit + 1 => writeRun (writeWord m a d) (a + 1) ws limit

/-! ### The private queue -/

/-- The unit after a unit in R8's circular order. -/
def Owner.next : Owner → Owner
  | .frame => .print
  | .print => .control
  | .control => .event
  | .event => .frame

/-- Some unit still waits with an entry of this name. -/
def Chip.stillWaiting (c : Chip) (id : Nat) : Bool :=
  c.path.waitFrame.any (fun e => e.id == id) || c.path.waitPrint.any (fun e => e.id == id) ||
    c.path.waitControl.any (fun e => e.id == id) || c.path.waitEvent.any fun e => e.id == id

/-- An entry its unit does not offer yet: a reply before the other deposits of its command have joined
(R26). -/
def Chip.blocked (c : Chip) (e : Entry) : Bool :=
  match e.purpose with
  | .reply after => after.any c.stillWaiting
  | _ => false

/-- The entry as it joins the queue: an inquiry record is taken at that moment (R32). -/
def takenEntry (c : Chip) (e : Entry) : Entry :=
  match e.work with
  | .inquiry k i a => { e with work := .deposit a ((inquiryRecord c k i).map fun w => (w, false)) }
  | _ => e

/-- An entry added at the tail: its unit counts as given a place (R8). -/
def joinQueue (e : Entry) (c : Chip) : Chip :=
  c.withPath { c.path with queue := c.path.queue ++ [takenEntry c e], turn := e.owner.next }

/-- The queue holds fewer than 16 entries (R8). -/
def Chip.hasPlace (c : Chip) : Bool := decide (c.path.queue.length < Config.queueLimit)

/-- A unit's entry is added when the queue has a place and nothing of the unit waits before it; else the
unit keeps it (R8, assumption 23). -/
def offer (e : Entry) (c : Chip) : Chip :=
  if c.hasPlace && (c.waiting e.owner).isEmpty && !c.blocked e then joinQueue e c
  else c.putWaiting e.owner (c.waiting e.owner ++ [e])

/-- An entry formed and offered. -/
def formEntry (o : Owner) (p : Purpose) (w : Work) (c : Chip) : Chip :=
  offer { id := c.path.serial, owner := o, purpose := p, work := w }
    (c.withPath { c.path with serial := c.path.serial + 1 })

/-- A deposit formed and offered, no word struck. -/
def formDeposit (o : Owner) (p : Purpose) (a : Nat) (ws : List Word) (c : Chip) : Chip :=
  formEntry o p (.deposit a (ws.map fun w => (w, false))) c

/-- A fetch formed and offered. -/
def formFetch (o : Owner) (p : Purpose) (a n : Nat) (c : Chip) : Chip := formEntry o p (.fetch a n) c

/-- The names of the entries formed from `n` on that still wait. -/
def Chip.waitingSince (c : Chip) (n : Nat) : List Nat :=
  ((c.path.waitFrame ++ c.path.waitPrint ++ c.path.waitControl ++ c.path.waitEvent).filter
    fun e => decide (n ≤ e.id)).map fun e => e.id

/-- The units in circular order from one on (R8). -/
def Owner.fromTurn : Owner → List Owner
  | .frame => [.frame, .print, .control, .event]
  | .print => [.print, .control, .event, .frame]
  | .control => [.control, .event, .frame, .print]
  | .event => [.event, .frame, .print, .control]

/-- The entry a unit offers next: its oldest waiting one, unless it is not offered yet. -/
def Chip.offered (c : Chip) (o : Owner) : Option Entry :=
  match c.waiting o with
  | [] => none
  | e :: _ => if c.blocked e then none else some e

/-- A place given to the first waiting unit in circular turn, which adds its oldest waiting entry (R8). -/
def givePlace (c : Chip) : Chip :=
  if c.hasPlace then
    match c.path.turn.fromTurn.findSome? c.offered with
    | some e => joinQueue e (c.putWaiting e.owner ((c.waiting e.owner).drop 1))
    | none => c
  else c

/-- Some unit has an entry to add and there is a place for it. -/
def Chip.placeDue (c : Chip) : Bool :=
  c.hasPlace && (c.path.turn.fromTurn.findSome? c.offered).isSome

/-- The entries a test picks, withdrawn from the queue and dropped from the frame unit's waiting list
(R11, R47). -/
def withdrawFrame (f : Purpose → Bool) (c : Chip) : Chip :=
  c.withPath { c.path with
    queue := c.path.queue.filter (fun e => !f e.purpose),
    waitFrame := c.path.waitFrame.filter (fun e => !f e.purpose) }

/-- A deposit's words from address `a` on, with those at address `x` struck (R10). -/
def strikeWords (x a : Nat) : List (Word × Bool) → List (Word × Bool)
  | [] => []
  | (d, b) :: ws => (d, b || decide (a % Config.memoryWords = x)) :: strikeWords x (a + 1) ws

/-- An entry with its target words at `x` struck. -/
def strikeEntry (x : Nat) (e : Entry) : Entry :=
  match e.work with
  | .deposit a ws => { e with work := .deposit a (strikeWords x a ws) }
  | _ => e

/-- A deposit whose words are all struck. -/
def Entry.allStruck (e : Entry) : Bool :=
  match e.work with
  | .deposit _ ws => ws.all fun w => w.2
  | _ => false

/-- The number of entries up to and including the last queued deposit that holds `x` unstruck, 0 when none
does (R13). -/
def lastHolding (x : Nat) : List Entry → Nat
  | [] => 0
  | e :: q =>
    let holds := match e.work with
      | .deposit a ws =>
        (List.range ws.length).any fun k =>
          decide ((a + k) % Config.memoryWords = x) && (ws.getD k (0, true)).2 == false
      | _ => false
    let n := lastHolding x q
    if n ≠ 0 then n + 1 else if holds then 1 else 0

/-! ### Events (chapter 12) -/

/-- An event as a unit hands it on: class, kind, object word, octet detail fields in order, a word-sized
field, and an address for the address events (R175). -/
structure Event where
  cls : EvClass
  kind : Nat
  obj : Nat := 0
  octets : List Nat := []
  word : Option Nat := none
  addr : Option NewAddr := none
  deriving DecidableEq, Repr

/-- The places an event needs: one, or two for an address pair (R176). -/
def Event.size (v : Event) : Nat := if v.addr.isSome then 2 else 1

/-- Words 1–3 of an event's record (R175). -/
def Event.body (v : Event) : List Word :=
  let o := fun k => v.octets.getD k 0
  [wordNat v.obj, octetPair (o 0) (o 1),
    match v.word with
    | some w => wordNat w
    | none => octetPair (o 2) (o 3)]

/-- The places free in the event ring: the producer may not come round to the consumer (R176). -/
def Chip.ringRoom (c : Chip) : Nat :=
  let r := c.ctl.unit.ringSize
  (c.evt.consumer + r - c.evt.producer % r - 1) % r

/-- One record formed at the producer index (R175, R176). -/
def formRecord (cls : EvClass) (kind : Nat) (body : List Word) (c : Chip) : Chip :=
  let w0 := wordNat (cls.code * 8192 + kind * 256 + c.evt.sequence)
  let a := c.base + c.ctl.unit.eventWord + 4 * c.evt.producer
  let c := formDeposit .event .eventRecord a (w0 :: body) c
  c.withEvt { c.evt with
    producer := (c.evt.producer + 1) % c.ctl.unit.ringSize,
    sequence := (c.evt.sequence + 1) % 256 }

/-- The producer deposit to word 24, which shows records of the classes given (R176). -/
def formProducer (classes : List EvClass) (c : Chip) : Chip :=
  formDeposit .event (.producer c.evt.producer classes) (c.base + 24) [wordNat c.evt.producer] c

/-- An event's records formed, with the producer deposit after the last (R175, R176). -/
def formEvent (v : Event) (c : Chip) : Chip :=
  match v.addr with
  | none => formProducer [v.cls] (formRecord v.cls v.kind v.body c)
  | some x =>
    formProducer [v.cls, .proxy]
      (formRecord .proxy 7 (addrWords x) (formRecord v.cls v.kind v.body c))

/-- An event handed to the event unit: not formed when its class is not recorded, lost when there is no
room, formed otherwise (R176, R178). -/
def recordEvent (v : Event) (c : Chip) : Chip :=
  if !maskHas c.ctl.recordMask v.cls then c
  else if c.ringRoom < v.size then
    c.withEvt { c.evt with
      overflow := maskAdd c.evt.overflow v.cls,
      lost := satAdd 65535 c.evt.lost 1 }
  else formEvent v c

/-- OVERFLOW (class CONTROL): the class set in the high octet of word 2, the lost count in word 3 (R178). -/
def evOverflow (set : Octet) (lost : Nat) : Event :=
  { cls := .control
    kind := 5
    octets := [set.toNat]
    word := some lost }

/-- The OVERFLOW record, formed whatever the record mask holds; the set and the lost count start again
(R178). -/
def formOverflow (c : Chip) : Chip :=
  let c := formEvent (evOverflow c.evt.overflow c.evt.lost) c
  c.withEvt { c.evt with overflow := 0, lost := 0 }

/-- The records of a producer deposit are written: the shown producer takes its value, the class counts
rise, NOTICE is re-driven (R176, R179). -/
def recordsWritten (value : Nat) (classes : List EvClass) (c : Chip) : Chip :=
  redriveNotice (c.withEvt { c.evt with shown := value, unread := c.evt.unread ++ classes })

/-- The value a consumer write takes, clamped to R − 1 (R177). -/
def Chip.consumerValue (c : Chip) (d : Word) : Nat := min d.toNat (c.ctl.unit.ringSize - 1)

/-- The distance from the consumer forward to the value written (R177). -/
def Chip.consumerDistance (c : Chip) (d : Word) : Nat :=
  (c.consumerValue d + c.ctl.unit.ringSize - c.evt.consumer % c.ctl.unit.ringSize) % c.ctl.unit.ringSize

/-- How many records a consumer write consumes: those it passes, or all that are shown when it would pass
records not yet shown (R177). -/
def Chip.consumed (c : Chip) (d : Word) : Nat := min (c.consumerDistance d) c.evt.unread.length

/-- The consumer index moved, the records consumed, NOTICE re-driven (R177, R179). -/
def consume (d : Word) (c : Chip) : Chip :=
  redriveNotice (c.withEvt { c.evt with
    consumer := if c.consumerDistance d ≤ c.evt.unread.length then c.consumerValue d else c.evt.shown
    unread := c.evt.unread.drop (c.consumed d) })

/-- A consumer write (R177); OVERFLOW follows when it consumed a record and the set is not empty (R178). -/
def consumerWrite (d : Word) (c : Chip) : Chip :=
  if c.consumed d ≠ 0 ∧ c.evt.overflow ≠ 0 then formOverflow (consume d c) else consume d c

end Sys2Proof.Machine
end

