-- ==== Sys2Proof/Machine/Events.lean ====
section
/-! DEFINITION. Every event of the part, from the event tables of the chapters: class and kind by
section 12.1, object and detail in the order the table names, codes by R175 (a cause or reason takes its
position, counting from 1, in the list its owning rule gives). -/

namespace Sys2Proof.Machine

/-! ### Trunk (section 8.9) -/

/-- Causes of a trunk state change, in the order of R123. -/
inductive TrunkCause where
  | rise | fall | holdExpiry | trialExpiry | command | action | unitRecord
  deriving DecidableEq, Repr

def TrunkCause.code : TrunkCause → Nat
  | .rise => 1
  | .fall => 2
  | .holdExpiry => 3
  | .trialExpiry => 4
  | .command => 5
  | .action => 6
  | .unitRecord => 7

def evTrunkState (t : Nat) (old new : TrunkState) (strikes : Nat) (cause : TrunkCause) : Event :=
  { cls := .trunk, kind := 1, obj := t, octets := [old.code, new.code, strikes, cause.code] }

def evStrikesCleared (t strikes : Nat) : Event := { cls := .trunk, kind := 2, obj := t, octets := [strikes] }

/-! ### Station (sections 4.8, 8.9) -/

def evStationLearned (s t : Nat) : Event := { cls := .station, kind := 1, obj := s, octets := [t] }

def evStationMoved (s h t : Nat) : Event := { cls := .station, kind := 2, obj := s, octets := [h, t] }

def evStationConflict (s h t : Nat) : Event := { cls := .station, kind := 3, obj := s, octets := [h, t] }

def evNumberClash (s t : Nat) (k : Kind) : Event :=
  { cls := .station, kind := 4, obj := s, octets := [t, k.code] }

def evStationPresence (s : Nat) (old new : Presence) : Event :=
  { cls := .station, kind := 5, obj := s, octets := [old.code, new.code] }

def evStationRemoved (s t : Nat) : Event := { cls := .station, kind := 6, obj := s, octets := [t] }

/-- The pinned setting, for which R175 lists no code, is 0 or, pinned, 1 (assumption 61). -/
def evStationSet (s : Nat) (k : Kind) (pinned : Bool) : Event :=
  { cls := .station, kind := 7, obj := s, octets := [k.code, bitNat pinned] }

def evStationCleared (s : Nat) (k : Kind) : Event := { cls := .station, kind := 8, obj := s, octets := [k.code] }

def evStationUnit (s : Nat) (k : Kind) : Event := { cls := .station, kind := 9, obj := s, octets := [k.code] }

/-- `cause` is CHARGE 1 or COMMAND 2. -/
def evStationQuarantined (s cause score : Nat) : Event :=
  { cls := .station, kind := 10, obj := s, octets := [cause, score] }

/-- `cause` is DECAY 1 or COMMAND 2. -/
def evStationReleased (s cause : Nat) : Event := { cls := .station, kind := 11, obj := s, octets := [cause] }

/-! ### Proxy (section 5.8) -/

def evProxyAllocated (p slot : Nat) (x : NewAddr) : Event :=
  { cls := .proxy, kind := 1, obj := p, octets := [slot], addr := some x }

def evProxyReclaimed (p : Nat) (x : NewAddr) : Event := { cls := .proxy, kind := 2, obj := p, addr := some x }

def evProxyEvicted (p : Nat) (x : NewAddr) : Event := { cls := .proxy, kind := 3, obj := p, addr := some x }

/-- Reasons for freeing a proxy, in the order of section 5.8. -/
inductive FreeReason where
  | age | command | range | aliasBlock
  deriving DecidableEq, Repr

def FreeReason.code : FreeReason → Nat
  | .age => 1
  | .command => 2
  | .range => 3
  | .aliasBlock => 4

def evProxyFreed (p : Nat) (x : NewAddr) (r : FreeReason) : Event :=
  { cls := .proxy, kind := 4, obj := p, octets := [r.code], addr := some x }

def evProxyPoolEmpty (x : NewAddr) : Event := { cls := .proxy, kind := 5, addr := some x }

def evAddressClash (x : NewAddr) : Event := { cls := .proxy, kind := 6, addr := some x }

/-! ### Job (section 9.10); the printer stands in the object word -/

/-- The object word of a job event. -/
def jobObject (p j : Nat) : Nat := p * 256 + j

def evJobOpened (p j owner : Nat) : Event := { cls := .job, kind := 1, obj := jobObject p j, octets := [owner] }

def evJobStarted (p j : Nat) : Event := { cls := .job, kind := 2, obj := jobObject p j }

def evJobSuspended (p j t : Nat) : Event := { cls := .job, kind := 3, obj := jobObject p j, octets := [t] }

/-- Causes of a resumption, in the order of R149. -/
inductive ResumeCause where
  | connected | heard
  deriving DecidableEq, Repr

def ResumeCause.code : ResumeCause → Nat
  | .connected => 1
  | .heard => 2

def evJobResumed (p j : Nat) (cause : ResumeCause) : Event :=
  { cls := .job, kind := 4, obj := jobObject p j, octets := [cause.code] }

/-- Reason CLOSED 1 or TIMEOUT 2 (R143). -/
def Closed.code : Closed → Nat
  | .no => 0
  | .close => 1
  | .timeout => 2

def evJobDone (p j owner : Nat) (r : Closed) (octets : Nat) : Event :=
  { cls := .job, kind := 5, obj := jobObject p j, octets := [owner, r.code], word := some octets }

def evJobAbandoned (p j owner : Nat) (r : AbandonReason) : Event :=
  { cls := .job, kind := 6, obj := jobObject p j, octets := [owner, r.code] }

/-! ### Printer (section 10.6) -/

/-- Causes of a printer state change, in the order of R152. -/
inductive PrinterCause where
  | error | line | command | action | record | unitRecord
  deriving DecidableEq, Repr

def PrinterCause.code : PrinterCause → Nat
  | .error => 1
  | .line => 2
  | .command => 3
  | .action => 4
  | .record => 5
  | .unitRecord => 6

def evPrinterState (p : Nat) (old new : PrinterState) (cause : PrinterCause) : Event :=
  { cls := .printer, kind := 1, obj := p, octets := [old.code, new.code, cause.code] }

def evJobsMoved (a b n : Nat) : Event := { cls := .printer, kind := 2, obj := a, octets := [b, n] }

/-! ### Reaction (section 11.3) -/

def evTimerExpired (k : Nat) (count : Word) : Event :=
  { cls := .reaction, kind := 1, obj := k, word := some count.toNat }

def evReactionNote (r v : Nat) : Event := { cls := .reaction, kind := 2, obj := r, octets := [v] }

def evReactionLoop (r : Nat) (k : TriggerKind) : Event :=
  { cls := .reaction, kind := 3, obj := r, octets := [k.code] }

/-! ### Control (section 2.7) -/

def evByteWriteIgnored (off : Nat) : Event := { cls := .control, kind := 1, word := some off }

def evStrayWrite (m : Master) (off : Nat) : Event :=
  { cls := .control, kind := 2, octets := [masterCode m], word := some off }

/-- Reasons for refusing a commit, in the order of R19. -/
inductive RefuseReason where
  | unknownCode | region | wrongMode | jobOpen
  deriving DecidableEq, Repr

def RefuseReason.code : RefuseReason → Nat
  | .unknownCode => 1
  | .region => 2
  | .wrongMode => 3
  | .jobOpen => 4

def evConfigRefused (r : RefuseReason) (off : Nat) : Event :=
  { cls := .control, kind := 3, octets := [r.code], word := some off }

def evCommandRefused (code tag : Octet) : Event :=
  { cls := .control, kind := 4, octets := [code.toNat, tag.toNat] }

/-! ### Path (sections 3.6, 6.5, 9.10) -/

def evVerdictDiscarded (i : Nat) (e : Engine) (ph : Phase) : Event :=
  { cls := .path, kind := 1, obj := i, octets := [engineCode e, ph.code] }

def evGuardSkipped (i mask : Nat) : Event := { cls := .path, kind := 2, obj := i, octets := [mask] }

def evRingOrder (p i : Nat) (d : Word) : Event :=
  { cls := .path, kind := 3, obj := p, octets := [i], word := some d.toNat }

end Sys2Proof.Machine
end

