-- ==== Sys2Proof/Machine/Printing.lean ====
section
/-! DEFINITION. The print unit: the spool (R136), claims, feeding, the end and the abandonment of jobs
(R141 to R145), completions (R146, R147), suspension (R148, R149), printer states, records and pairs
(R152 to R161), and the taking of print frames (R135 to R140).

A claim that is released passes on, a printer record may then apply, and the printer's change may give
another claim (R141, R143, R154). `serveN` ties that knot by a bound; the operations it uses take as
`srv` what serves a printer next. -/

namespace Sys2Proof.Machine

/-! ### Details of replies (section 2.7) -/

/-- The detail codes of word 6. -/
inductive Detail where
  | none | wrongMode | noUnit | noRings | badIndex | badKind | unknownCommand | jobOpen
  | duplicateAddress | aliasAddress | notOutput | notCut
  deriving DecidableEq, Repr

def Detail.code : Detail → Nat
  | .none => 0
  | .wrongMode => 1
  | .noUnit => 2
  | .noRings => 3
  | .badIndex => 4
  | .badKind => 5
  | .unknownCommand => 6
  | .jobOpen => 7
  | .duplicateAddress => 8
  | .aliasAddress => 9
  | .notOutput => 10
  | .notCut => 11

/-- What a command's owner answers: DONE with detail NONE, or REFUSED with the detail. -/
abbrev Answer := Detail × Chip

/-! ### Jobs and the spool -/

/-- The lowest number below `n` that a test picks. -/
def lowest (n : Nat) (f : Nat → Bool) : Option Nat := (List.range n).find? f

/-- Spool entry `i` is IN_RING. -/
def Chip.entryInRing (c : Chip) (i : Nat) : Bool :=
  match c.spoolEntry i with
  | some e => e.inRing
  | none => false

/-- Job `j` has an entry IN_RING. -/
def Chip.ringBusy (c : Chip) (j : Nat) : Bool := (c.job j).spool.any c.entryInRing

/-- An entry freed: it leaves its job's spool list and returns to the pool (R136). -/
def freeEntry (i : Nat) (c : Chip) : Chip :=
  match c.spoolEntry i with
  | none => c
  | some e =>
    (c.putJob e.job { c.job e.job with spool := (c.job e.job).spool.filter (· ≠ i) }).putSpool i none

/-- Octets added to a job's octets printed, saturating. -/
def addPrinted (j n : Nat) (c : Chip) : Chip :=
  c.putJob j { c.job j with printed := satAdd 65535 (c.job j).printed n }

/-- An entry that stands ahead of a returned one in the spool list: it is IN_RING, or it was returned and
last deposited before (R147). -/
def Chip.standsAhead (c : Chip) (stamp i : Nat) : Bool :=
  match c.spoolEntry i with
  | some e => e.inRing || (e.ringIndex.isSome && decide (e.stamp < stamp))
  | none => false

/-- An entry returned to its job (R147): SPOOLED, ahead of every entry that has not been in the ring and
behind every returned entry last deposited before it; freed when the job is abandoned. -/
def returnEntry (i : Nat) (c : Chip) : Chip :=
  match c.spoolEntry i with
  | none => c
  | some e =>
    if (c.job e.job).reason.isSome then freeEntry i c
    else
      let c := c.putSpool i (some { e with inRing := false })
      let others := (c.job e.job).spool.filter (· ≠ i)
      let ahead := others.takeWhile (c.standsAhead e.stamp)
      let behind := others.dropWhile (c.standsAhead e.stamp)
      c.putJob e.job { c.job e.job with spool := ahead ++ i :: behind }

/-- A station's open-job field cleared if it names the job. -/
def clearOpenJob (n j : Nat) (c : Chip) : Chip :=
  if (c.station n).openJob = some j then c.putStation n { c.station n with openJob := none } else c

/-- The idle countdown of a job that enters PRINTING (R140). -/
def Chip.idleStart (c : Chip) : Option Nat :=
  if c.ctl.print.idleLimit = 0 then none else some (c.ctl.print.idleLimit * 100)

/-- A job that has come to its end (R143). -/
def Chip.jobOver (c : Chip) (j : Nat) : Bool :=
  let v := c.job j
  match v.reason with
  | none =>
    (decide (v.state = .closing) || (decide (v.state = .suspended) && decide (v.resume = .closing))) &&
      v.spool.isEmpty
  | some _ => decide (v.state ≠ .free) && !c.ringBusy j

/-- A job's end (R143): its event, its trigger, the open-job field, the claim, the record, in the order R143 lists
them, the trigger's whole chain taken before the rest (assumption 64). `rel` is what follows from a released
claim. -/
def endJob (rel : Nat → Chip → Chip) (g : Give) (j : Nat) (c : Chip) : Chip :=
  let v := c.job j
  let p := v.printer
  let c := match v.reason with
    | none => g (.jobDone p) (recordEvent (evJobDone p j v.owner v.closed v.printed) c)
    | some r => g (.jobAbandoned p) (recordEvent (evJobAbandoned p j v.owner r) c)
  let c := clearOpenJob v.owner j c
  if (c.printer p).claim = some j then
    rel p ((c.putPrinter p { c.printer p with claim := none }).putJob j Job.blank)
  else c.putJob j Job.blank

/-! ### Feeding (R144, R145) -/

/-- N: the descriptors of printer `p`'s ring. -/
def Chip.ringDescs (c : Chip) (p : Nat) : Nat := 2 ^ (c.printerRec p).e

/-- The first SPOOLED entry of printer `p`'s claimant, when the printer is to be fed one (R145). -/
def Chip.nextFed (c : Chip) (p : Nat) : Option Nat :=
  let v := c.printer p
  if c.ctl.mode = .run ∧ v.state = .ready ∧ (v.produced - v.done).toNat ≠ c.ringDescs p then
    match v.claim with
    | none => none
    | some j => (c.job j).spool.find? fun i => !c.entryInRing i
  else none

/-- An entry deposited into descriptor P modulo N: words 1–7, then word 0 (R145). -/
def feedEntry (p i : Nat) (e : SpoolEntry) (c : Chip) : Chip :=
  let v := c.printer p
  let d := v.produced.toNat % c.ringDescs p
  let a := (c.printerRec p).base + 8 * d
  let c := c.putSpool i (some { e with
    inRing := true, ringIndex := some d, ringCount := v.produced, stamp := c.path.serial })
  let c := c.putPrinter p { v with
    produced := v.produced + 1,
    descs := tset Desc.blank v.descs d { entry := some i, completed := false, printed := 0 } }
  let c := formDeposit .print (.printerDescriptor p d) (a + 1)
    [wordNat e.addr, wordNat (e.addr / 65536), wordNat e.len, 0, wordNat e.job, wordNat e.srcRing,
      wordNat e.srcIndex] c
  formDeposit .print (.printerDescriptor p d) a [0] c

/-- Printer `p` fed while it may be, at most `n` entries. -/
def feedN (p : Nat) : Nat → Chip → Chip
  | 0, c => c
  | n + 1, c =>
    match c.nextFed p with
    | none => c
    | some i =>
      match c.spoolEntry i with
      | none => c
      | some e => feedN p n (feedEntry p i e c)

/-- Printer `p` fed: a ring holds at most 64 descriptors. -/
def feed (p : Nat) (c : Chip) : Chip := feedN p 64 c

/-! ### Claims (R141) -/

/-- The job a READY, unclaimed printer gives its claim to, in RUN: the oldest of its queue not SUSPENDED. -/
def Chip.nextClaimant (c : Chip) (p : Nat) : Option Nat :=
  let v := c.printer p
  if c.ctl.mode = .run ∧ v.state = .ready ∧ v.claim = none then
    v.queue.find? fun j => decide ((c.job j).state ≠ .suspended)
  else none

/-- A job takes printer `p`'s claim (R141). -/
def startJob (p j : Nat) (c : Chip) : Chip :=
  let v := c.job j
  let c := c.putPrinter p { c.printer p with
    claim := some j, queue := (c.printer p).queue.filter (· ≠ j) }
  let c := if v.closed = .no then c.putJob j { v with state := .printing, idle := c.idleStart }
    else c.putJob j { v with state := .closing }
  recordEvent (evJobStarted p j) c

/-! ### Printer pairs (R159 to R161) -/

/-- The partner of a printer in its pair. -/
def partner (p : Nat) : Nat := if p % 2 = 0 then p + 1 else p - 1

/-- The pair mode of a printer's pair; it does not arise when the even printer is out of force. -/
def Chip.pairModeOf (c : Chip) (p : Nat) : PairMode :=
  if evenOf p < c.ctl.unit.np then (c.printerRec (evenOf p)).pairMode else .independent

/-- Every job of `a`'s wait queue moved to the tail of `b`'s (R160). -/
def moveJobs (srv : Nat → Chip → Chip) (a b : Nat) (c : Chip) : Chip :=
  let jobs := (c.printer a).queue
  if jobs.isEmpty then c
  else
    let c := jobs.foldl (fun c j => c.putJob j { c.job j with printer := b }) c
    let c := c.putPrinter a { c.printer a with queue := [] }
    let c := c.putPrinter b { c.printer b with queue := (c.printer b).queue ++ jobs }
    srv b (recordEvent (evJobsMoved a b jobs.length) c)

/-- The moves of a FAILOVER pair at a printer's state change (R161). -/
def failover (srv : Nat → Chip → Chip) (p : Nat) (old new : PrinterState) (c : Chip) : Chip :=
  let q := partner p
  if c.pairModeOf p = .failover then
    if old = .ready ∧ new ≠ .ready ∧ (c.printer q).state = .ready then moveJobs srv p q c
    else if new = .ready ∧ (c.printer q).state ≠ .ready then moveJobs srv q p c
    else c
  else c

/-! ### Printer states and records (R152 to R155) -/

/-- The trigger a printer's new state gives (R152). -/
def printerTrigger (g : Give) (p : Nat) (new : PrinterState) (c : Chip) : Chip :=
  match new with
  | .stalled => g (.printerStalled p) c
  | .ready => g (.printerEntersReady p) c
  | _ => c

/-- A printer's change of state, handed on in R152's order; the lamps follow. A change that leaves the
state as it was hands on nothing. -/
def setPrinterState (srv : Nat → Chip → Chip) (g : Give) (p : Nat) (new : PrinterState)
    (cause : PrinterCause) (c : Chip) : Chip :=
  let old := (c.printer p).state
  if old = new then c
  else
    let c := redriveLines (c.putPrinter p { c.printer p with state := new })
    let c := recordEvent (evPrinterState p old new cause) c
    printerTrigger g p new (srv p (failover srv p old new c))

/-- The entries IN_RING at printer `p`'s descriptors, in the order they were deposited. -/
def Chip.ringEntries (c : Chip) (p : Nat) : List Nat :=
  let v := c.printer p
  let n := c.ringDescs p
  (List.range n).filterMap fun k => (c.desc p ((v.done.toNat + k) % n)).entry

/-- The entries of printer `p`'s ring taken back as if FLUSHED; an abandoned claimant left with none then
ends (R154 step 1). -/
def takeBack (srv : Nat → Chip → Chip) (g : Give) (p : Nat) (c : Chip) : Chip :=
  let c := (c.ringEntries p).foldl (fun c i => returnEntry i c) c
  match (c.printer p).claim with
  | none => c
  | some j => if (c.job j).reason.isSome ∧ c.jobOver j then endJob srv g j c else c

/-- Printer `p`'s ring view at its starting values (R144). -/
def resetView (p : Nat) (c : Chip) : Chip :=
  c.putPrinter p { c.printer p with produced := 0, done := 0, descs := [] }

/-- Printer record `p` takes effect, in R154's order: entries, ring view, state, and only then the pair
mode and swap. For a printer out of force it only replaces the working copy. -/
def applyPrinterRec (srv : Nat → Chip → Chip) (g : Give) (p : Nat) (r : PrinterRec) (c : Chip) : Chip :=
  if c.ctl.unit.np ≤ p then c.putPrinterRec p r
  else
    let old := c.printerRec p
    let c := resetView p ((takeBack srv g p c).putPrinterRec p
      { r with pairMode := old.pairMode, swap := old.swap })
    let c := if !r.enabled then setPrinterState srv g p .disabled .record c
      else if (c.printer p).state = .disabled then setPrinterState srv g p .ready .record c
      else c
    c.putPrinterRec p r

/-- Printer `p` is at its boundary: no claim, and no descriptor of its ring holds an entry (R154). -/
def Chip.atBoundary (c : Chip) (p : Nat) : Bool :=
  (c.printer p).claim.isNone && (c.printer p).descs.all fun d => d.2.entry.isNone

/-- An awaiting record of printer `p` takes effect if the printer is at its boundary (R154). -/
def applyAwaiting (srv : Nat → Chip → Chip) (g : Give) (p : Nat) (c : Chip) : Chip :=
  match c.awaitingPrinter p with
  | none => c
  | some r => if c.atBoundary p then applyPrinterRec srv g p r (c.putAwaitingPrinter p none) else c

/-- What follows from printer `p`'s released claim: an awaiting record, then the claim rule (R154). -/
def afterRelease (srv : Nat → Chip → Chip) (g : Give) (p : Nat) (c : Chip) : Chip :=
  srv p (applyAwaiting srv g p c)

/-- The claim rule and the feeding rule applied to printer `p` (R141, R145), a job that ends as it takes
its claim passing it on. -/
def serveN (g : Give) : Nat → Nat → Chip → Chip
  | 0, _, c => c
  | n + 1, p, c =>
    match c.nextClaimant p with
    | none => feed p c
    | some j =>
      let c := startJob p j c
      if c.jobOver j then endJob (afterRelease (serveN g n) g) g j c else feed p c

/-- Printer `p` served. -/
def serve (g : Give) (p : Nat) (c : Chip) : Chip := serveN g Config.serveFuel p c

/-- A job's end with what follows from its claim. -/
def finishJob (g : Give) (j : Nat) (c : Chip) : Chip := endJob (afterRelease (serve g) g) g j c

/-- A job tested for its end (R143). -/
def testEnd (g : Give) (j : Nat) (c : Chip) : Chip := if c.jobOver j then finishJob g j c else c

/-! ### Abandonment (R142) -/

/-- A job in use, not already abandoned, given up for a reason, in the order of R142. -/
def abandon (g : Give) (j : Nat) (r : AbandonReason) (c : Chip) : Chip :=
  let v := c.job j
  if v.state = .free ∨ v.reason.isSome then c
  else
    let p := v.printer
    let c := c.putJob j { v with reason := some r, idle := none, grace := none }
    let c := clearOpenJob v.owner j c
    let c := c.putPrinter p { c.printer p with queue := (c.printer p).queue.filter (· ≠ j) }
    let c := (v.spool.filter fun i => !c.entryInRing i).foldl (fun c i => freeEntry i c) c
    let c := if (c.printer p).claim = some j then
        c.putJob j { c.job j with state := .closing, resume := .free, trunk := 0 }
      else c
    testEnd g j c

/-- The open job of a station entry abandoned, if it has one. -/
def abandonOpen (g : Give) (n : Nat) (r : AbandonReason) (c : Chip) : Chip :=
  match (c.station n).openJob with
  | none => c
  | some j => clearOpenJob n j (abandon g j r c)

/-! ### Suspension and resumption (R148, R149) -/

/-- A job that a cut of trunk `t` suspends. -/
def Chip.suspendable (c : Chip) (t j : Nat) : Bool :=
  let v := c.job j
  decide (v.state ≠ .free) && decide (v.state ≠ .suspended) && v.reason.isNone &&
    decide ((c.station v.owner).kind = .legacy) && decide ((c.station v.owner).trunk = t)

/-- Job `j` suspended for trunk `t`. -/
def suspendJob (t j : Nat) (c : Chip) : Chip :=
  let v := c.job j
  let c := c.putJob j { v with
    state := .suspended, resume := v.state, trunk := t, idle := none,
    grace := some (c.ctl.print.grace * 100) }
  recordEvent (evJobSuspended v.printer j t) c

/-- Job `j` resumed: its resume state, and the claim rule when that is WAITING. -/
def resumeJob (g : Give) (cause : ResumeCause) (j : Nat) (c : Chip) : Chip :=
  let v := c.job j
  let c := c.putJob j { v with
    state := v.resume, resume := .free, grace := none, trunk := 0,
    idle := if v.resume = .printing then c.idleStart else none }
  let c := recordEvent (evJobResumed v.printer j cause) c
  if v.resume = .waiting then serve g v.printer c else c

/-- A SUSPENDED job that is not abandoned. -/
def Job.suspended (v : Job) : Bool := decide (v.state = .suspended) && v.reason.isNone

/-- The jobs' part in a trunk state change (R148, R149), in ascending number (assumption 53). -/
def jobsFollowTrunk (g : Give) (t : Nat) (old new : TrunkState) (c : Chip) : Chip :=
  if old.connected ∧ (new.cut ∨ new = .disabled) then
    (List.range Config.jobRecords).foldl (fun c j => if c.suspendable t j then suspendJob t j c else c) c
  else if (new = .trial ∨ new = .inService) ∧ (old.cut ∨ old = .disabled) then
    (List.range Config.jobRecords).foldl (fun c j =>
      if (c.job j).suspended ∧ (c.job j).trunk = t then resumeJob g .connected j c else c) c
  else c

/-- The print unit told that station `n` has been heard: its suspended jobs resume when its entry is
LEGACY on a connected trunk (R54, R149). -/
def jobsHeard (g : Give) (n : Nat) (c : Chip) : Chip :=
  (List.range Config.jobRecords).foldl (fun c j =>
    if (c.job j).suspended ∧ (c.job j).owner = n ∧ (c.station n).kind = .legacy ∧
        c.trunkUp (c.station n).trunk then resumeJob g .heard j c else c) c

/-! ### Completions of printer descriptors (R146, R147) -/

/-- C advanced over the completed descriptors, each losing its mark, at most `n` of them. -/
def advanceDone (p : Nat) : Nat → Chip → Chip
  | 0, c => c
  | n + 1, c =>
    let v := c.printer p
    let i := v.done.toNat % c.ringDescs p
    if (c.desc p i).completed then
      advanceDone p n (c.putPrinter p { v with
        done := v.done + 1,
        descs := tset Desc.blank v.descs i { c.desc p i with completed := false } })
    else c

/-- The entry of a completed descriptor dealt with by its error; true when the printer stalls. -/
def dealEntry (err i : Nat) (e : SpoolEntry) (printed : Word) (c : Chip) : Bool × Chip :=
  if err = 0 then (false, addPrinted e.job e.len (freeEntry i c))
  else if err = 4 then (false, returnEntry i c)
  else if e.len ≤ printed.toNat then (false, addPrinted e.job e.len (freeEntry i c))
  else
    let k := printed.toNat / 2
    let c := c.putSpool i (some { e with
      addr := (e.addr + k) % Config.memoryWords, len := e.len - 2 * k })
    (true, returnEntry i (addPrinted e.job (2 * k) c))

/-- A completion of descriptor `i` of printer ring `p` by the status word `w` (R146, R147, R156). -/
def completeDescriptor (g : Give) (p i : Nat) (w : Word) (c : Chip) : Chip :=
  let d := c.desc p i
  match d.entry with
  | none => recordEvent (evRingOrder p i w) c
  | some n =>
    match c.spoolEntry n with
    | none => recordEvent (evRingOrder p i w) c
    | some e =>
      let c := c.putDesc p i { d with entry := none, completed := true }
      let dealt := dealEntry (printerError w) n e d.printed c
      let c := advanceDone p 64 dealt.2
      let c := if dealt.1 then setPrinterState (serve g) g p .stalled .error c else c
      serve g p (testEnd g e.job c)

/-- A write shown to the print unit: a print engine's full-word write of word 0 with owner DONE is a
completion, of word 4 the printed count; nothing else changes the view (R144, R146). -/
def printerRingWrite (g : Give) (m : Master) (full : Bool) (p off : Nat) (w : Word) (c : Chip) : Chip :=
  if m = .printEngine ∧ full then
    if off % 8 = 0 ∧ ownerField w = 1 then completeDescriptor g p (off / 8) w c
    else if off % 8 = 4 then c.putDesc p (off / 8) { c.desc p (off / 8) with printed := w }
    else c
  else c

/-! ### Printer commands (R157, R158) -/

/-- HOLD_PRINTER and RESUME_PRINTER refuse a printer out of force or DISABLED. -/
def Chip.noPrinter (c : Chip) (p : Nat) : Bool :=
  decide (8 ≤ p) || decide (c.ctl.unit.np ≤ p) || decide ((c.printer p).state = .disabled)

/-- HOLD_PRINTER (R157). -/
def holdPrinter (g : Give) (cause : PrinterCause) (p : Nat) (c : Chip) : Answer :=
  if c.noPrinter p then (.badIndex, c)
  else (.none, setPrinterState (serve g) g p .held cause c)

/-- RESUME_PRINTER (R158). -/
def resumePrinter (g : Give) (cause : PrinterCause) (p : Nat) (c : Chip) : Answer :=
  if c.noPrinter p then (.badIndex, c)
  else (.none, setPrinterState (serve g) g p .ready cause c)

/-! ### Print frames (R131 to R140) -/

/-- A frame marked as a print frame, as the station unit hands it on (R92), with the printer number of a
PRINT_OPEN (R131). -/
structure PrintFrame where
  owner : Nat
  kind : Nat
  seq : Octet
  len : Nat
  addr : Nat
  srcRing : Nat
  srcIndex : Nat
  printer : Option Nat
  deriving DecidableEq, Repr

/-- The print unit's completion of the verdict record (R132): detail, reason, job, printer, buffer held. -/
structure PrintOutcome where
  detail : Nat
  reason : Nat := 0
  job : Nat := 0
  printer : Nat := 0
  held : Bool := false
  deriving DecidableEq, Repr

/-- PRINT_ACCEPTED 1, PRINT_DUPLICATE 2 or PRINT_CLOSED 3 of a job. -/
def PrintOutcome.of (detail j : Nat) (v : Job) : PrintOutcome :=
  { detail := detail, job := j, printer := v.printer }

/-- PRINT_REFUSED that concerns no job: NO_PRINTER 1, JOB_TABLE_FULL 2, NO_JOB 3. -/
def PrintOutcome.refused (reason : Nat) : PrintOutcome := { detail := 4, reason := reason }

/-- PRINT_REFUSED of a job's data: SEQUENCE 4, SPOOL_FULL 5, WAIT_CAP 6. -/
def PrintOutcome.refusedData (reason j : Nat) (v : Job) : PrintOutcome :=
  { detail := 4, reason := reason, job := j, printer := v.printer }

/-- The printer a new job is assigned from printer `n`, and the toggle after (R159). -/
def assignPrinter (n : Nat) (c : Chip) : Nat × Chip :=
  let ready := fun q => decide ((c.printer q).state = .ready)
  match c.pairModeOf n with
  | .independent => (n, c)
  | .failover => (if ready n then n else if ready (partner n) then partner n else n, c)
  | .alternate =>
    let k := n / 2
    let t := bitNat (c.toggle k)
    let chosen := if (c.printerRec (2 * k)).swap then 2 * k + 1 - t else 2 * k + t
    let other := partner chosen
    let p := if ready chosen then chosen else if ready other then other
      else if (c.printer chosen).state ≠ .disabled then chosen else other
    (p, c.putToggle k (!c.toggle k))

/-- A job opened on printer `p` in record `j` (R135 step 5). -/
def openJob (g : Give) (j p : Nat) (f : PrintFrame) (c : Chip) : Chip :=
  let c := c.putJob j { Job.blank with state := .waiting, owner := f.owner, printer := p, seq := f.seq }
  let c := c.putStation f.owner { c.station f.owner with openJob := some j }
  let c := c.putPrinter p { c.printer p with queue := (c.printer p).queue ++ [j] }
  serve g p (recordEvent (evJobOpened p j f.owner) c)

/-- PRINT_OPEN names a printer that cannot be printed on (R135 step 2). -/
def Chip.opensNowhere (c : Chip) : Option Nat → Bool
  | none => true
  | some n => decide (c.ctl.unit.np ≤ n) || decide ((c.printer n).state = .disabled)

/-- PRINT_OPEN from its third step on (R135 steps 3 to 5). -/
def openFresh (g : Give) (n : Nat) (f : PrintFrame) (c : Chip) : PrintOutcome × Chip :=
  let c := abandonOpen g f.owner .reopened c
  match lowest Config.jobRecords fun j => decide ((c.job j).state = .free) with
  | none => (.refused 2, c)
  | some j =>
    let a := assignPrinter n c
    ({ detail := 1, job := j, printer := a.1 }, openJob g j a.1 f a.2)

/-- PRINT_OPEN (R135). -/
def printOpen (g : Give) (f : PrintFrame) (c : Chip) : PrintOutcome × Chip :=
  match (c.station f.owner).openJob with
  | some j =>
    if (c.job j).accepted = 0 then (.of 2 j (c.job j), c)
    else if c.opensNowhere f.printer then (.refused 1, c)
    else openFresh g (f.printer.getD 0) f c
  | none =>
    if c.opensNowhere f.printer then (.refused 1, c) else openFresh g (f.printer.getD 0) f c

/-- The idle countdown restarted if the job has one (R137). -/
def Chip.idleRestart (c : Chip) (v : Job) : Option Nat := if v.idle.isSome then c.idleStart else none

/-- A job that has not taken its claim, under its resume state when SUSPENDED (R137 step 6). -/
def Job.stillWaiting (v : Job) : Bool :=
  decide (v.state = .waiting) || (decide (v.state = .suspended) && decide (v.resume = .waiting))

/-- A data block's payload taken into free entry `i` (R137 step 7). -/
def acceptData (g : Give) (j i : Nat) (f : PrintFrame) (c : Chip) : Chip :=
  let v := c.job j
  let c := c.putSpool i (some
    { addr := f.addr, len := f.len, job := j, srcRing := f.srcRing, srcIndex := f.srcIndex,
      inRing := false, ringIndex := none, ringCount := 0, stamp := 0 })
  let c := c.putJob j { v with
    spool := v.spool ++ [i], accepted := satAdd 65535 v.accepted f.len, seq := f.seq,
    idle := c.idleRestart v }
  serve g v.printer c

/-- PRINT_DATA (R137). -/
def printData (g : Give) (f : PrintFrame) (c : Chip) : PrintOutcome × Chip :=
  match (c.station f.owner).openJob with
  | none => (.refused 3, c)
  | some j =>
    let v := c.job j
    if f.seq = v.seq then (.of 2 j v, c)
    else if f.seq ≠ v.seq + 1 then (.refusedData 4 j v, c)
    else if f.len = 0 then (.of 1 j v, c.putJob j { v with seq := f.seq, idle := c.idleRestart v })
    else
      match lowest Config.spoolEntries fun i => (c.spoolEntry i).isNone with
      | none => (.refusedData 5 j v, c)
      | some i =>
        if v.stillWaiting ∧ c.ctl.print.waitCap ≤ v.spool.length then (.refusedData 6 j v, c)
        else ({ detail := 1, job := j, printer := v.printer, held := true }, acceptData g j i f c)

/-- The state of an open job once closed (R138). -/
def Job.closeAs (v : Job) (how : Closed) : Job :=
  match v.state, v.resume with
  | .printing, _ => { v with state := .closing, closed := how, idle := none }
  | .suspended, .printing => { v with resume := .closing, closed := how, idle := none }
  | _, _ => { v with closed := how, idle := none }

/-- PRINT_CLOSE (R138). -/
def printClose (g : Give) (f : PrintFrame) (c : Chip) : PrintOutcome × Chip :=
  match (c.station f.owner).openJob with
  | none => (.refused 3, c)
  | some j =>
    let v := c.job j
    (.of 3 j v, testEnd g j (clearOpenJob f.owner j (c.putJob j (v.closeAs .close))))

/-- PRINT_ABORT (R139). -/
def printAbort (g : Give) (f : PrintFrame) (c : Chip) : PrintOutcome × Chip :=
  match (c.station f.owner).openJob with
  | none => (.refused 3, c)
  | some j => (.of 1 j (c.job j), abandon g j .aborted c)

/-- A print frame taken by the print unit (R132). -/
def printFrame (g : Give) (f : PrintFrame) (c : Chip) : PrintOutcome × Chip :=
  if f.kind = 0x10 then printOpen g f c
  else if f.kind = 0x11 then printData g f c
  else if f.kind = 0x12 then printClose g f c
  else printAbort g f c

/-! ### Countdowns of jobs (R140, R149) -/

/-- The expiry of job `j`'s idle countdown (R140). -/
def idleExpiry (g : Give) (j : Nat) (c : Chip) : Chip :=
  let v := c.job j
  if v.spool.any fun i => !c.entryInRing i then c.putJob j { v with idle := c.idleStart }
  else testEnd g j (clearOpenJob v.owner j
    (c.putJob j { v with state := .closing, closed := .timeout, idle := none }))

/-- The expiry of job `j`'s grace countdown (R149). -/
def graceExpiry (g : Give) (j : Nat) (c : Chip) : Chip :=
  abandon g j .isolated (c.putJob j { c.job j with grace := none })

end Sys2Proof.Machine
end

