-- ==== Sys2Proof/Machine/Health.lean ====
section
/-! DEFINITION. The health unit: trunk state changes and what they tell the other units (R58, R123), the
crossing rules (R106 to R108), isolation, release and the expiries (R116 to R121), trunk and station
charges and decay (R98 to R104), and station standing (R128 to R130). -/

namespace Sys2Proof.Machine

/-! ### Trunk state changes (R58, R123) -/

/-- A trigger received by the reaction unit, to be taken later. -/
def receiveTrigger : Give := fun v c => c.withRct { c.rct with received := c.rct.received ++ [v] }

/-- An operation whose triggers are received and not taken: those triggers, oldest first, and the part after
it, with what had been received before it (R123, assumption 57). -/
def receiving (f : Give → Chip → Chip) (c : Chip) : List Trigger × Chip :=
  let d := f receiveTrigger (c.withRct { c.rct with received := [] })
  (d.rct.received, d.withRct { d.rct with received := c.rct.received })

/-- The presence an UNREACHABLE entry takes when its trunk is connected again (R58), by the silence limit of
the last second boundary (R51, assumption 56). -/
def Chip.presenceBack (c : Chip) (e : Station) : Presence :=
  if c.stn.limits.silence ≤ e.age then .silent else .active

/-- A LEGACY entry's presence set, and recorded when it changes; an entry that has the presence already
records nothing (R59 step 3, assumption 54). -/
def setPresence (n : Nat) (v : Presence) (c : Chip) : Chip :=
  let e := c.station n
  if e.presence = v then c
  else recordEvent (evStationPresence n e.presence v) (c.putStation n { e with presence := v })

/-- The station numbers 1–254. -/
def stationNumbers : List Nat := (List.range 254).map (· + 1)

/-- The LEGACY entries of a trunk made UNREACHABLE (R58, R59), in ascending number (assumption 53). -/
def stationsCut (t : Nat) (c : Chip) : Chip :=
  stationNumbers.foldl (fun c n =>
    if (c.station n).kind = .legacy ∧ (c.station n).trunk = t then setPresence n .unreachable c else c) c

/-- The UNREACHABLE LEGACY entries of a trunk given their presence back (R58, R59), in ascending number
(assumption 53). -/
def stationsBack (t : Nat) (c : Chip) : Chip :=
  stationNumbers.foldl (fun c n =>
    let e := c.station n
    if e.kind = .legacy ∧ e.trunk = t ∧ e.presence = .unreachable then
      setPresence n (c.presenceBack e) c
    else c) c

/-- The station unit's part in a trunk state change (R58). -/
def stationsFollowTrunk (t : Nat) (old new : TrunkState) (c : Chip) : Chip :=
  if old.connected ∧ new.cut then stationsCut t c
  else if old.cut ∧ (new = .trial ∨ new = .inService) then stationsBack t c
  else c

/-- A trunk state change handed on (R123): the station unit, the print unit, the event unit, the lines,
the reaction unit. A trigger that the print unit gives meanwhile is taken after TRUNK_ENTERS, when all four
have been told (assumption 57). A unit record's changes reach the station unit later, by R59. -/
def handOnTrunk (g : Give) (t : Nat) (old : TrunkState) (cause : TrunkCause) (c : Chip) : Chip :=
  let r := c.trunk t
  let c := if cause = .unitRecord then c else stationsFollowTrunk t old r.state c
  let jobs := receiving (fun later => jobsFollowTrunk later t old r.state) c
  let c := redriveLines (recordEvent (evTrunkState t old r.state r.strikes cause) jobs.2)
  jobs.1.foldl (fun c v => g v c) (g (.trunkEnters t r.state) c)

/-- A trunk record replaced, its change of state handed on; a record whose state stays as it was hands on
nothing. -/
def moveTrunk (g : Give) (t : Nat) (r : Trunk) (cause : TrunkCause) (c : Chip) : Chip :=
  let old := (c.trunk t).state
  let c := c.putTrunk t r
  if old = r.state then c else handOnTrunk g t old cause c

/-! ### The records a trunk takes with each state -/

/-- Ticks of a duration in seconds (R115). -/
def ticksOf (n : Nat) : Nat := n * 100

/-- Entry into IN_SERVICE: the clear countdown starts when the strikes are above 0 (R119). -/
def Trunk.intoService (h : HealthRec) (r : Trunk) : Trunk :=
  { r with
    state := .inService, countdown := none, forced := false,
    clearCountdown := if r.strikes = 0 then none else some (ticksOf h.clearInterval) }

/-- Entry into WATCH; the clear countdown becomes absent (R119). -/
def Trunk.intoWatch (r : Trunk) : Trunk :=
  { r with state := .watch, countdown := none, clearCountdown := none, forced := false }

/-- Entry into TRIAL: S is floor(TI / 2), the trial countdown starts, the strikes are kept (R117). -/
def Trunk.intoTrial (h : HealthRec) (r : Trunk) : Trunk :=
  { r with
    state := .trial, score := h.ti / 2, countdown := some (ticksOf h.trial), clearCountdown := none,
    forced := false }

/-- The hold after `strikes` strikes, in seconds: min(hold base × 2^(strikes − 1), hold max) (R116). -/
def HealthRec.hold (h : HealthRec) (strikes : Nat) : Nat := min (h.holdBase * 2 ^ (strikes - 1)) h.holdMax

/-- Automatic isolation: a strike, then ISOLATED with its hold, or LOCKED_OUT (R116). -/
def Trunk.intoIsolation (h : HealthRec) (r : Trunk) : Trunk :=
  let k := satAdd 15 r.strikes 1
  if h.maxStrikes ≤ k then
    { r with state := .lockedOut, strikes := k, countdown := none, clearCountdown := none, forced := false }
  else
    { r with
      state := .isolated, strikes := k, countdown := some (ticksOf (h.hold k)), clearCountdown := none,
      forced := false }

/-! ### Rises, falls and decay (R101, R103, R106 to R108) -/

/-- A rise taken into the score. -/
def Trunk.charged (r : Trunk) (w : Nat) : Trunk := { r with score := satAdd 65535 r.score w }

/-- A charge of weight `w` to a connected trunk, tested against the crossing rules as it is made: WATCH
first, then isolation (R101, R106, R107). -/
def chargeTrunk (g : Give) (t w : Nat) (c : Chip) : Chip :=
  let r := c.trunk t
  if w = 0 ∨ ¬ r.state.connected then c
  else
    let h := c.ctl.health
    let r' := r.charged w
    let c := if r.state = .inService ∧ r.score < h.tw ∧ h.tw ≤ r'.score then
        moveTrunk g t r'.intoWatch .rise c
      else c.putTrunk t r'
    let now := c.trunk t
    if now.state.connected ∧ h.ti ≤ now.score then moveTrunk g t (now.intoIsolation h) .rise c else c

/-- A fall of S to `s`: a WATCH trunk at or below floor(TW / 2) returns to IN_SERVICE (R108). -/
def lowerTrunk (g : Give) (t s : Nat) (c : Chip) : Chip :=
  let r := c.trunk t
  let h := c.ctl.health
  if r.score ≤ s then c
  else if r.state = .watch ∧ s ≤ h.tw / 2 then
    moveTrunk g t (Trunk.intoService h { r with score := s }) .fall c
  else c.putTrunk t { r with score := s }

/-- The good credit of a clean frame (R98). -/
def creditTrunk (g : Give) (t : Nat) (c : Chip) : Chip :=
  lowerTrunk g t ((c.trunk t).score - c.ctl.health.goodCredit) c

/-- What a decay tick takes from a score: max(1, floor(S × D / 256)), nothing when S or D is 0 (R103). -/
def decayLoss (s d : Nat) : Nat := if s = 0 ∨ d = 0 then 0 else max 1 (s * d / 256)

/-- One trunk's decay (R103). -/
def decayTrunk (g : Give) (t : Nat) (c : Chip) : Chip :=
  let r := c.trunk t
  lowerTrunk g t (r.score - decayLoss r.score c.ctl.health.decayFactor) c

/-- The weight of a coax error kind charged at stage one (R97). -/
def HealthRec.weight (h : HealthRec) (err : Nat) : Nat :=
  if err = 1 then h.bodyCrc
  else if err = 2 then h.short
  else if err = 3 then h.long
  else if err = 4 then h.code
  else if err = 5 then h.reflection
  else 0

/-- Stage one of a coax completion on trunk `t` (R40, R98): a credit for NONE, a charge for 1–5, on a
present and connected trunk. -/
def stageOne (g : Give) (t err : Nat) (c : Chip) : Chip :=
  if ¬ c.trunkUp t ∨ 6 ≤ err then c
  else if err = 0 then creditTrunk g t c
  else chargeTrunk g t (c.ctl.health.weight err) c

/-! ### Station standing (R128 to R130) -/

/-- A GOOD station becomes QUARANTINED, in R128's order; `cause` is CHARGE 1 or COMMAND 2. -/
def quarantineStation (g : Give) (n cause : Nat) (c : Chip) : Chip :=
  let c := c.putStation n { c.station n with quarantined := true }
  let c := recordEvent (evStationQuarantined n cause (c.station n).score) c
  g .stationQuarantined (abandonOpen g n .quarantined c)

/-- A QUARANTINED station becomes GOOD; `cause` is DECAY 1 or COMMAND 2 (R128). -/
def releaseStanding (n cause : Nat) (c : Chip) : Chip :=
  recordEvent (evStationReleased n cause) (c.putStation n { c.station n with quarantined := false })

/-- A station charge of total weight `w` (R100): quarantine when a GOOD score is left at the limit or
above. -/
def chargeStation (g : Give) (n w : Nat) (c : Chip) : Chip :=
  if w = 0 then c
  else
    let e := c.station n
    let c := c.putStation n { e with score := satAdd 255 e.score w }
    if c.ctl.health.stationLimit ≤ satAdd 255 e.score w ∧ !e.quarantined then
      quarantineStation g n 1 c
    else c

/-- One station's decay (R104): released when a QUARANTINED score falls to 0. -/
def decayStation (n : Nat) (c : Chip) : Chip :=
  let e := c.station n
  let s := e.score - c.ctl.health.stationStep
  if e.score = 0 ∨ c.ctl.health.stationStep = 0 then c
  else
    let c := c.putStation n { e with score := s }
    if s = 0 ∧ e.quarantined then releaseStanding n 1 c else c

/-- QUARANTINE and RELEASE_STATION refuse 0, 255, and an EMPTY or UNIT entry (R129, R130). -/
def Chip.standingRefusal (c : Chip) (n : Nat) : Option Detail :=
  if n = 0 ∨ 255 ≤ n then some .badIndex
  else if (c.station n).kind = .empty ∨ (c.station n).kind = .unit then some .badKind
  else none

/-- QUARANTINE (R129). -/
def quarantineCommand (g : Give) (n : Nat) (c : Chip) : Answer :=
  match c.standingRefusal n with
  | some d => (d, c)
  | none =>
    let e := c.station n
    let c := c.putStation n { e with score := 255 }
    (.none, if e.quarantined then c else quarantineStation g n 2 c)

/-- RELEASE_STATION (R130). -/
def releaseStationCommand (n : Nat) (c : Chip) : Answer :=
  match c.standingRefusal n with
  | some d => (d, c)
  | none =>
    let e := c.station n
    let c := c.putStation n { e with score := 0 }
    (.none, if e.quarantined then releaseStanding n 2 c else c)

/-! ### Isolation and release by command and action (R120, R121) -/

/-- ISOLATE_TRUNK (R120). -/
def isolateTrunk (g : Give) (cause : TrunkCause) (t : Nat) (c : Chip) : Answer :=
  if c.ctl.unit.nt ≤ t then (.badIndex, c)
  else
    let r := c.trunk t
    if r.state.connected then
      (.none, moveTrunk g t
        { r with state := .isolated, forced := true, countdown := none, clearCountdown := none } cause c)
    else if r.state = .isolated then
      (.none, c.putTrunk t { r with forced := true, countdown := none })
    else (.none, c)

/-- RELEASE_TRUNK (R121). -/
def releaseTrunk (g : Give) (cause : TrunkCause) (t : Nat) (c : Chip) : Answer :=
  if c.ctl.unit.nt ≤ t then (.badIndex, c)
  else
    let r := c.trunk t
    let h := c.ctl.health
    match r.state with
    | .isolated => (.none, moveTrunk g t (r.intoTrial h) cause c)
    | .lockedOut => (.none, moveTrunk g t (Trunk.intoTrial h { r with strikes := 0 }) cause c)
    | _ => (.notCut, c)

/-! ### Expiries (R117 to R119) -/

/-- The expiry of an ISOLATED trunk's hold (R117). -/
def holdExpiry (g : Give) (t : Nat) (c : Chip) : Chip :=
  moveTrunk g t ((c.trunk t).intoTrial c.ctl.health) .holdExpiry c

/-- The expiry of a TRIAL trunk's trial (R118). -/
def trialExpiry (g : Give) (t : Nat) (c : Chip) : Chip :=
  let r := c.trunk t
  moveTrunk g t (if r.score < c.ctl.health.tw then r.intoService c.ctl.health else r.intoWatch)
    .trialExpiry c

/-- The expiry of an IN_SERVICE trunk's clear countdown (R119). -/
def clearExpiry (t : Nat) (c : Chip) : Chip :=
  let r := c.trunk t
  recordEvent (evStrikesCleared t r.strikes)
    (c.putTrunk t { r with strikes := 0, clearCountdown := none })

/-! ### The decay tick (R102) -/

/-- A decay tick: trunks below NT in ascending number, every station, an awaiting health commit, and the
count back to 0. -/
def decayTickWork (g : Give) (c : Chip) : Chip :=
  let c := (List.range 4).foldl (fun c t => if t < c.ctl.unit.nt then decayTrunk g t c else c) c
  let c := stationNumbers.foldl (fun c n => decayStation n c) c
  let c := match c.ctl.awaitingHealth with
    | some h => c.withCtl { c.ctl with health := h, awaitingHealth := none }
    | none => c
  c.withHlth { c.hlth with decayCount := 0, decayDue := false }

end Sys2Proof.Machine
end

