-- ==== Sys2Proof/Machine/Reactions.lean ====
section
/-! DEFINITION. The reaction unit: timers (R163 to R165), lines (R167 to R170), and the reaction table:
triggers, actions and chains (R171 to R174). -/

namespace Sys2Proof.Machine

/-! ### Timers (R163 to R165) -/

/-- A timer's expiry, in R164's order. -/
def timerExpiry (g : Give) (k : Nat) (c : Chip) : Chip :=
  let v := c.timer k
  let v := { v with expiries := v.expiries + 1 }
  let v := if v.record.repeats ∧ v.record.period ≠ 0 then
      { v with running := true, count := v.record.period }
    else { v with running := false, count := 0 }
  g (.timer k) (recordEvent (evTimerExpired k v.expiries) (c.putTimer k v))

/-- A timer started: from its period, whether RUNNING or STOPPED; with period 0 it expires at once (R165). -/
def startTimer (g : Give) (k : Nat) (c : Chip) : Answer :=
  if 4 ≤ k then (.badIndex, c)
  else
    let v := c.timer k
    let c := c.putTimer k { v with running := true, count := v.record.period }
    (.none, if v.record.period = 0 then timerExpiry g k c else c)

/-- A timer stopped (R165). -/
def stopTimer (k : Nat) (c : Chip) : Answer :=
  if 4 ≤ k then (.badIndex, c)
  else (.none, c.putTimer k { c.timer k with running := false, count := 0 })

/-- A timer record takes effect (R163). -/
def applyTimerRec (k : Nat) (r : TimerRec) (c : Chip) : Chip :=
  let v := c.timer k
  if v.running then
    if r.period = 0 then c.putTimer k { v with record := r, running := false, count := 0 }
    else c.putTimer k { v with record := r, count := r.period }
  else c.putTimer k { v with record := r }

/-! ### Lines (R167 to R170) -/

/-- A line record takes effect (R167): the pin is driven at once; an OUTPUT that stays OUTPUT keeps its
kept level, one that becomes OUTPUT takes its rest level; a line that becomes INPUT or PRINTER_READY takes
its sampled level from its pin. -/
def applyLineRec (l : Nat) (r : LineRec) (c : Chip) : Chip :=
  let v := c.line l
  let kept := if r.fn = .output ∧ v.record.fn ≠ .output then r.rest else v.kept
  let c := redriveLines (c.putLine l { v with record := r, kept := kept })
  if r.fn.samples ∧ r.fn ≠ v.record.fn then
    c.putLine l { c.line l with sampled := c.pinActive l }
  else c

/-- An OUTPUT line's kept level set and its pin driven (R170). -/
def setLine (l : Nat) (v : Level) (c : Chip) : Answer :=
  if 8 ≤ l then (.badIndex, c)
  else if (c.line l).record.fn ≠ .output then (.notOutput, c)
  else (.none, redriveLines (c.putLine l { c.line l with kept := v }))

/-- Every sampled level taken from its pin without an edge, as at START (R169). -/
def sampleLines (c : Chip) : Chip :=
  (List.range 8).foldl (fun c l =>
    if (c.line l).record.fn.samples then c.putLine l { c.line l with sampled := c.pinActive l } else c) c

/-- Line `l` compared with its sampled level at a tick; a change is an edge (R156, R169). -/
def sampleLine (g : Give) (c : Chip) (l : Nat) : Chip :=
  let v := c.line l
  let now := c.pinActive l
  if !v.record.fn.samples || now == v.sampled then c
  else
    let c := c.putLine l { v with sampled := now }
    if now then
      let p := v.record.obj
      let c := if v.record.fn = .printerReady ∧ (c.printer p).state = .stalled then
          setPrinterState (serve g) g p .ready .line c
        else c
      g (.lineRise l) c
    else g (.lineFall l) c

/-! ### The reaction table (R171 to R174) -/

/-- The kind of a trigger. -/
def Trigger.kind : Trigger → TriggerKind
  | .trunkEnters _ _ => .trunkEnters
  | .stationQuarantined => .stationQuarantined
  | .printerStalled _ => .printerStalled
  | .printerEntersReady _ => .printerEntersReady
  | .jobDone _ => .jobDone
  | .jobAbandoned _ => .jobAbandoned
  | .timer _ => .timer
  | .lineRise _ => .lineRise
  | .lineFall _ => .lineFall
  | .proxyPoolEmpty => .proxyPoolEmpty

/-- A reaction's object, and for TRUNK_ENTERS its state, match a trigger's. -/
def ReactionRec.meets (r : ReactionRec) : Trigger → Bool
  | .trunkEnters t st => decide (r.triggerObj = t) && decide (r.triggerState = st)
  | .stationQuarantined => true
  | .printerStalled p => decide (r.triggerObj = p)
  | .printerEntersReady p => decide (r.triggerObj = p)
  | .jobDone p => decide (r.triggerObj = p)
  | .jobAbandoned p => decide (r.triggerObj = p)
  | .timer k => decide (r.triggerObj = k)
  | .lineRise l => decide (r.triggerObj = l)
  | .lineFall l => decide (r.triggerObj = l)
  | .proxyPoolEmpty => true

/-- A reaction that is enabled and matches a trigger (R172). -/
def ReactionRec.fires (r : ReactionRec) (v : Trigger) : Bool :=
  r.enabled && decide (r.trigger = v.kind) && r.meets v

/-- The action of reaction `n`, taken as the command of the same name would be, with no reply; where that
command would be refused it changes nothing (R173). `g` fires the triggers the action causes. -/
def takeAction (g : Give) (n : Nat) (r : ReactionRec) (c : Chip) : Chip :=
  match r.action with
  | .none => c
  | .startTimer => (startTimer g r.actionObj c).2
  | .stopTimer => (stopTimer r.actionObj c).2
  | .setLineHigh => (setLine r.actionObj .high c).2
  | .setLineLow => (setLine r.actionObj .low c).2
  | .isolateTrunk => (isolateTrunk g .action r.actionObj c).2
  | .releaseTrunk => (releaseTrunk g .action r.actionObj c).2
  | .holdPrinter => (holdPrinter g .action r.actionObj c).2
  | .resumePrinter => (resumePrinter g .action r.actionObj c).2
  | .note => recordEvent (evReactionNote n r.actionObj) c

/-- Reaction `n` of a trigger: its working record as it then stands; a once reaction's enable is cleared
before its action is taken whole (R172). -/
def fireReaction (g : Give) (v : Trigger) (c : Chip) (n : Nat) : Chip :=
  let r := c.reaction n
  if n < c.ctl.unit.nr ∧ r.fires v then
    takeAction g n r (if r.once then c.putReaction n { r with enabled := false } else c)
  else c

/-- The first enabled reaction in force that matches a trigger. -/
def Chip.firstMatch (c : Chip) (v : Trigger) : Option Nat :=
  lowest c.ctl.unit.nr fun n => (c.reaction n).fires v

/-- A trigger given to the reaction table in RUN, with the firings its chain has left: 4 at depth 1. With
none left, at depth 5, it fires nothing and one REACTION_LOOP is recorded (R172, R174). -/
def giveTrigger : Nat → Give
  | 0, v, c =>
    if c.ctl.mode = .run then
      match c.firstMatch v with
      | some n => recordEvent (evReactionLoop n v.kind) c
      | none => c
    else c
  | n + 1, v, c =>
    if c.ctl.mode = .run then (List.range 16).foldl (fireReaction (giveTrigger n) v) c else c

/-- A trigger not caused by an action: depth 1 (R174). -/
def top : Give := giveTrigger Config.chainDepth

end Sys2Proof.Machine
end

