-- ==== Sys2Proof/Machine/Stations.lean ====
section
/-! DEFINITION. The station unit: hearings (R52 to R55), aging (R56, R57, R74), aliases and the proxy
range (R66 to R68), lookup, allocation and reclaim (R70 to R73), the station commands (R60, R61, R77) and
what a unit record commit does to the table (R59, R78). -/

namespace Sys2Proof.Machine

/-! ### Aliases and the proxy range (R66 to R68) -/

/-- The alias of station `s`: the alias base with its low octet replaced (R66). -/
def UnitRec.aliasAddr (u : UnitRec) (s : Nat) : NewAddr :=
  BitVec.ofNat 48 (u.aliasBase.toNat / 256 * 256 + s % 256)

/-- An address is in the alias block: its first five octets are those of the base (R66). -/
def UnitRec.inAliasBlock (u : UnitRec) (x : NewAddr) : Bool :=
  decide (x.toNat / 256 = u.aliasBase.toNat / 256)

/-- The alias octet of an address: its low octet. -/
def aliasOctet (x : NewAddr) : Nat := x.toNat % 256

/-- FF:FF:FF:FF:FF:FF. -/
def allOnes : NewAddr := BitVec.allOnes 48

/-- The proxy range in force (R68): from P_lo up to P_hi, U skipped, at most 64 numbers. -/
def UnitRec.proxyRange (u : UnitRec) : List Nat :=
  (((List.range (u.pHi + 1 - u.pLo)).map (· + u.pLo)).filter fun n =>
    !(decide (u.u ≠ 0) && decide (n = u.u))).take Config.proxySlots

/-- The PROXY entries, in ascending number. -/
def Chip.proxies (c : Chip) : List Nat :=
  stationNumbers.filter fun n => decide ((c.station n).kind = .proxy)

/-- The number of the PROXY entry that holds an address (R69). -/
def Chip.findAddr (c : Chip) (x : NewAddr) : Option Nat :=
  c.proxies.find? fun n => decide ((c.station n).addr = x)

/-- The lowest free slot of the proxy map (R69). -/
def Chip.freeSlot (c : Chip) : Option Nat :=
  let used := c.proxies.map fun n => (c.station n).slot
  lowest Config.proxySlots fun k => !used.contains k

/-! ### Entries placed and emptied -/

/-- An entry made EMPTY with the values of R50. -/
def emptyStation (n : Nat) (c : Chip) : Chip := c.putStation n Station.blank

/-- A station placed as LEGACY on a trunk (R53 steps 2 to 5). -/
def placeLegacy (s t : Nat) (c : Chip) : Chip :=
  recordEvent (evStationLearned s t) (c.putStation s
    { Station.blank with
      kind := .legacy, trunk := t, lastChange := c.stn.clock, homeHearing := c.stn.clock })

/-- A proxy evicted by a legacy station (R53 step 1, R75). -/
def evictProxy (g : Give) (s : Nat) (c : Chip) : Chip :=
  let x := (c.station s).addr
  recordEvent (evProxyEvicted s x) (abandonOpen g s .evicted c)

/-- A proxy freed: its address leaves the map, the entry takes the values of R50 (R74, R77, R78). -/
def freeProxyEntry (n : Nat) (r : FreeReason) (c : Chip) : Chip :=
  let x := (c.station n).addr
  recordEvent (evProxyFreed n x r) (emptyStation n c)

/-! ### Hearings (R52 to R55) -/

/-- What a hearing was (R52). -/
inductive Heard where
  | taken | flap | clash
  deriving DecidableEq, Repr

/-- The print unit told of a hearing when the entry has an open job (R54). -/
def noticeHearing (g : Give) (s : Nat) (c : Chip) : Chip :=
  if (c.station s).openJob.isSome then jobsHeard g s c else c

/-- A hearing on the home trunk (R54). -/
def hearHome (g : Give) (s : Nat) (c : Chip) : Chip :=
  let e := c.station s
  let c := c.putStation s { e with age := 0, homeHearing := c.stn.clock, presence := .active }
  let c := if e.presence = .silent then recordEvent (evStationPresence s .silent .active) c else c
  noticeHearing g s c

/-- A move to trunk `t` (R55); the event is recorded before the print unit is told (assumption 55). -/
def hearMove (g : Give) (s t : Nat) (c : Chip) : Chip :=
  let e := c.station s
  let c := c.putStation s { e with
    trunk := t, lastChange := c.stn.clock, homeHearing := c.stn.clock, age := 0, presence := .active }
  noticeHearing g s (recordEvent (evStationMoved s e.trunk t) c)

/-- A flap (R55): the trunk and the home hearing stay; the event is recorded before the print unit is told
(assumption 55). -/
def hearFlap (g : Give) (s t : Nat) (c : Chip) : Chip :=
  let e := c.station s
  let c := c.putStation s { e with
    age := 0, presence := if c.trunkUp e.trunk then .active else e.presence }
  noticeHearing g s (recordEvent (evStationConflict s e.trunk t) c)

/-- A hearing away from home is a flap (R55): the entry is pinned, or its trunk is connected and it was
heard there within the flap window. -/
def Chip.isFlap (c : Chip) (e : Station) : Bool :=
  e.pinned || (c.trunkUp e.trunk && decide (c.ctl.aging.flapWindow ≠ 0) &&
    decide ((c.stn.clock - e.homeHearing).toNat < c.ctl.aging.flapWindow * 100))

/-- A clash: recorded, and the entry left as it was (R52). -/
def hearClash (s t : Nat) (c : Chip) : Heard × Chip :=
  (.clash, recordEvent (evNumberClash s t (c.station s).kind) c)

/-- A hearing of station `s` on trunk `t` (R52). -/
def hear (g : Give) (s t : Nat) (c : Chip) : Heard × Chip :=
  let e := c.station s
  match e.kind with
  | .empty => (.taken, placeLegacy s t c)
  | .proxy => if e.pinned then hearClash s t c else (.taken, placeLegacy s t (evictProxy g s c))
  | .unit => hearClash s t c
  | .legacy =>
    if e.trunk = t then (.taken, hearHome g s c)
    else if c.isFlap e then (.flap, hearFlap g s t c)
    else (.taken, hearMove g s t c)

/-! ### Lookup, allocation and reclaim (R70 to R73) -/

/-- What the lookup of a new-side source gives (R70). -/
inductive Lookup where
  | clash
  | number (p : Nat)
  | noProxy
  deriving DecidableEq, Repr

/-- Number `p` lent to address `x` in the lowest free slot, the exhausted flag cleared (R71, R72). -/
def lendNumber (p slot : Nat) (x : NewAddr) (c : Chip) : Chip :=
  let c := c.putStation p { Station.blank with kind := .proxy, addr := x, slot := slot }
  let c := recordEvent (evProxyAllocated p slot x) c
  c.withStn { c.stn with exhausted := false }

/-- The lowest EMPTY number of the range (R71). -/
def Chip.emptyNumber (c : Chip) : Option Nat :=
  c.ctl.unit.proxyRange.find? fun n => decide ((c.station n).kind = .empty)

/-- A candidate for reclaim (R72), by the reclaim minimum of the last second boundary (R51, assumption 56). -/
def Chip.reclaimable (c : Chip) (n : Nat) : Bool :=
  let e := c.station n
  decide (e.kind = .proxy) && !e.pinned && e.openJob.isNone && decide (c.stn.limits.reclaimMin ≤ e.age)

/-- The older of two numbers, the first when their ages are equal. -/
def Chip.older (c : Chip) (a : Option Nat) (n : Nat) : Option Nat :=
  match a with
  | none => some n
  | some m => if (c.station m).age < (c.station n).age then some n else some m

/-- The candidate of greatest age, the lower number among equals (R72). -/
def Chip.oldestProxy (c : Chip) : Option Nat :=
  (c.ctl.unit.proxyRange.filter c.reclaimable).foldl c.older none

/-- A failed allocation and reclaim: the first sets the exhausted flag and is recorded (R73). -/
def poolEmpty (g : Give) (x : NewAddr) (c : Chip) : Chip :=
  if c.stn.exhausted then c
  else
    let c := c.withStn { c.stn with exhausted := true }
    g .proxyPoolEmpty (recordEvent (evProxyPoolEmpty x) c)

/-- The reclaim of candidate `p` for address `x` (R72). -/
def reclaimNumber (p : Nat) (x : NewAddr) (c : Chip) : Chip :=
  let old := (c.station p).addr
  let c := recordEvent (evProxyReclaimed p old) (emptyStation p c)
  match c.freeSlot with
  | some k => lendNumber p k x c
  | none => c

/-- A number for an address the map does not hold: allocated, else reclaimed (R71 to R73). -/
def allocate (g : Give) (x : NewAddr) (c : Chip) : Lookup × Chip :=
  match c.emptyNumber, c.freeSlot with
  | some p, some k => (.number p, lendNumber p k x c)
  | _, _ =>
    match c.oldestProxy with
    | some p => (.number p, reclaimNumber p x c)
    | none => (.noProxy, poolEmpty g x c)

/-- The lookup of a new-side source address, in R70's order. -/
def lookup (g : Give) (x : NewAddr) (c : Chip) : Lookup × Chip :=
  if c.ctl.unit.inAliasBlock x then (.clash, recordEvent (evAddressClash x) c)
  else
    match c.findAddr x with
    | some p => (.number p, c.putStation p { c.station p with age := 0 })
    | none => if x = allOnes then (.noProxy, c) else allocate g x c

/-! ### Aging (R56, R57, R74) -/

/-- An entry whose age a second boundary advances (R56). -/
def Chip.ages (c : Chip) (n : Nat) : Bool :=
  let e := c.station n
  match e.kind with
  | .legacy => c.trunkUp e.trunk
  | .proxy => true
  | _ => false

/-- The silence and removal limits applied to a LEGACY entry (R51, R57). -/
def applyLegacyLimits (g : Give) (n : Nat) (c : Chip) : Chip :=
  let e := c.station n
  if e.kind ≠ .legacy then c
  else
    let c := if e.presence = .active ∧ c.stn.limits.silence ≤ e.age then setPresence n .silent c else c
    if c.stn.limits.removal ≠ 0 ∧ !e.pinned ∧ c.stn.limits.removal ≤ e.age then
      recordEvent (evStationRemoved n e.trunk) (emptyStation n (abandonOpen g n .removed c))
    else c

/-- The proxy free limit applied to a PROXY entry (R51, R74). -/
def applyProxyLimit (n : Nat) (c : Chip) : Chip :=
  let e := c.station n
  if e.kind = .proxy ∧ c.stn.limits.proxyFree ≠ 0 ∧ !e.pinned ∧ e.openJob = none ∧
      c.stn.limits.proxyFree ≤ e.age then freeProxyEntry n .age c
  else c

/-- A second boundary (R56): the aging record's limits come into force (R51), ages advance, then the limits
are applied, LEGACY entries first (assumption 18). -/
def secondBoundaryWork (g : Give) (c : Chip) : Chip :=
  let c := c.withStn { c.stn with secondDue := false, limits := c.ctl.aging.limits }
  let aged := stationNumbers.filter c.ages
  let c := aged.foldl (fun c n =>
    c.putStation n { c.station n with age := satAdd 65535 (c.station n).age 1 }) c
  let c := aged.foldl (fun c n => applyLegacyLimits g n c) c
  aged.foldl (fun c n => applyProxyLimit n c) c

/-! ### Station commands (R60, R61, R77) -/

/-- SET_STATION's kind code: LEGACY 1, PROXY 2 (R60). -/
def setKind (a1 : Word) : Nat := bitsOf a1 8 2

/-- The refusal of SET_STATION, the first of R60's conditions that holds. -/
def setStationRefusal (a1 a2 a3 a4 : Word) (c : Chip) : Option Detail :=
  let s := (loOctet a1).toNat
  let e := c.station s
  let x := addrOf a2 a3 a4
  let proxy := decide (setKind a1 = 2)
  if s = 0 ∨ s = 255 then some .badIndex
  else if setKind a1 ≠ 1 ∧ setKind a1 ≠ 2 then some .badKind
  else if e.kind = .unit then some .badIndex
  else if e.openJob.isSome then some .jobOpen
  else if !proxy ∧ c.ctl.unit.nt ≤ a2.toNat then some .badIndex
  else if proxy ∧ c.ctl.unit.inAliasBlock x then some .aliasAddress
  else if proxy ∧ (c.proxies.any fun n => decide (n ≠ s) && decide ((c.station n).addr = x)) then
    some .duplicateAddress
  else if proxy ∧ !bitOf a1 15 ∧ !c.ctl.unit.proxyRange.contains s then some .badIndex
  else if proxy ∧ e.kind ≠ .proxy ∧ c.freeSlot = none then some .badIndex
  else none

/-- SET_STATION applied (R60). -/
def applySetStation (a1 a2 a3 a4 : Word) (c : Chip) : Answer :=
  match setStationRefusal a1 a2 a3 a4 c with
  | some d => (d, c)
  | none =>
    let s := (loOctet a1).toNat
    let pinned := bitOf a1 15
    let c := emptyStation s c
    if setKind a1 = 1 then
      (.none, recordEvent (evStationSet s .legacy pinned) (c.putStation s
        { Station.blank with
          kind := .legacy, pinned := pinned, trunk := a2.toNat,
          presence := if (c.trunk a2.toNat).state.cut then .unreachable else .active,
          lastChange := c.stn.clock, homeHearing := c.stn.clock }))
    else
      (.none, recordEvent (evStationSet s .proxy pinned) (c.putStation s
        { Station.blank with
          kind := .proxy, pinned := pinned, addr := addrOf a2 a3 a4, slot := c.freeSlot.getD 0 }))

/-- CLEAR_STATION applied (R61). -/
def applyClearStation (a1 : Word) (c : Chip) : Answer :=
  let s := (loOctet a1).toNat
  let e := c.station s
  if s = 0 ∨ s = 255 ∨ e.kind = .unit then (.badIndex, c)
  else if e.openJob.isSome then (.jobOpen, c)
  else if e.kind = .empty then (.none, c)
  else (.none, recordEvent (evStationCleared s e.kind) (emptyStation s c))

/-- FREE_PROXY applied (R77). -/
def applyFreeProxy (a1 : Word) (c : Chip) : Answer :=
  let s := (loOctet a1).toNat
  let e := c.station s
  if s = 0 ∨ s = 255 then (.badIndex, c)
  else if e.kind ≠ .proxy then (.badKind, c)
  else if e.openJob.isSome then (.jobOpen, c)
  else (.none, freeProxyEntry s .command c)

/-! ### A unit record commit and the table (R59, R78) -/

/-- The old UNIT entry emptied unless its number is the new U (R59 step 1), with no event (assumption 48). -/
def dropOldUnit (c : Chip) : Chip :=
  stationNumbers.foldl (fun c n =>
    if (c.station n).kind = .unit ∧ n ≠ c.ctl.unit.u then emptyStation n c else c) c

/-- Entry U made UNIT and recorded with the kind it had, UNIT too (R59 step 2, assumption 17). -/
def makeUnit (c : Chip) : Chip :=
  let u := c.ctl.unit.u
  if u = 0 then c
  else recordEvent (evStationUnit u (c.station u).kind) (c.putStation u { Station.blank with kind := .unit })

/-- One PROXY entry under the new range and base (R78). -/
def reviewProxy (g : Give) (c : Chip) (n : Nat) : Chip :=
  let e := c.station n
  if e.kind ≠ .proxy then c
  else if c.ctl.unit.inAliasBlock e.addr then
    freeProxyEntry n .aliasBlock (abandonOpen g n .freed c)
  else if !e.pinned ∧ !c.ctl.unit.proxyRange.contains n then
    freeProxyEntry n .range (abandonOpen g n .freed c)
  else c

/-- The station unit's part in a unit record commit (R59, R78): `old` is the old NT. Within steps 3 and 4 the
trunks are taken in ascending number (assumption 53). -/
def stationsUnitCommit (g : Give) (old : Nat) (c : Chip) : Chip :=
  let nt := c.ctl.unit.nt
  let c := makeUnit (dropOldUnit c)
  let c := (List.range 4).foldl (fun c t => if nt ≤ t ∧ t < old then stationsCut t c else c) c
  let c := (List.range 4).foldl (fun c t => if c.trunkUp t then stationsBack t c else c) c
  let c := stationNumbers.foldl (reviewProxy g) c
  c.withStn { c.stn with exhausted := false }

end Sys2Proof.Machine
end

