-- ==== Sys2Proof/Machine/Verdicts.lean ====
section
/-! DEFINITION. Header tests (R34 to R36), the verdicts of coax frames (R81 to R86) and of pair frames
(R87 to R91), and the verdict record's words (section 3.7). -/

namespace Sys2Proof.Machine

/-! ### A held frame's fields -/

/-- Header octet `k` of a held frame, 0 where it is not captured. -/
def Slot.octet (v : Slot) (k : Nat) : Octet := (tget none v.octets k).getD 0

/-- Header octet `k` is captured. -/
def Slot.captured (v : Slot) (k : Nat) : Bool := (tget none v.octets k).isSome

/-- The error kind of a held frame, read by the table of section 3.1 for its engine (R33). -/
def Slot.err (e : Engine) (v : Slot) : Nat :=
  match e with
  | .coax => coaxError v.saved
  | .pair => pairError v.saved

/-- The trunk a coax frame was completed on. -/
def Slot.trunk (v : Slot) : Nat := trunkField v.saved

/-- The received length, 0 where it is not known. -/
def Slot.length (v : Slot) : Nat := (v.len.getD 0).toNat

/-- The buffer's word address, the upper 12 bits of its high part ignored (section 3.1). -/
def Slot.buffer (v : Slot) : Nat := (v.hi.getD 0).toNat % 16 * 65536 + (v.lo.getD 0).toNat

/-- The first octet of the legacy header, or of the embedded one: octet 0 of a coax frame, octet 14 (word 7)
of a pair frame. -/
def headerAt : Engine → Nat
  | .coax => 0
  | .pair => 14

/-- The fields of the legacy or embedded header: destination, source, kind, sequence, payload length. -/
def Slot.dst (e : Engine) (v : Slot) : Nat := (v.octet (headerAt e)).toNat
def Slot.src (e : Engine) (v : Slot) : Nat := (v.octet (headerAt e + 1)).toNat
def Slot.kind (e : Engine) (v : Slot) : Nat := (v.octet (headerAt e + 2)).toNat
def Slot.seq (e : Engine) (v : Slot) : Octet := v.octet (headerAt e + 3)
def Slot.payloadLen (e : Engine) (v : Slot) : Nat :=
  (wordOf (v.octet (headerAt e + 4)) (v.octet (headerAt e + 5))).toNat

/-- The sum rule of R34: the six octets of words 0–2 and the check octet give 255 modulo 256. -/
def Slot.headerGood (e : Engine) (v : Slot) : Bool :=
  let k := headerAt e
  decide ((v.octet k + v.octet (k + 1) + v.octet (k + 2) + v.octet (k + 3) + v.octet (k + 4) +
    v.octet (k + 5) + v.octet (k + 7)) = 255)

/-- The received length differs from 8 + L (R35). -/
def Slot.mismatch (v : Slot) : Bool := decide (v.length ≠ 8 + v.payloadLen .coax)

/-- A coax frame with a good header is MALFORMED (R35). -/
def Slot.malformed (v : Slot) : Bool :=
  v.mismatch || decide (v.src .coax = 0) || decide (v.src .coax = 255) || decide (v.dst .coax = 255)

/-- The pair frame's destination address M (octets 0–5) and source address X (octets 6–11). -/
def Slot.destAddr (v : Slot) : NewAddr := addrOfOctets v.octet 0
def Slot.sourceAddr (v : Slot) : NewAddr := addrOfOctets v.octet 6

/-- A pair frame is a link frame (R36). -/
def Slot.link (u : UnitRec) (v : Slot) : Bool :=
  decide (u.linkType ≠ 0) && decide (wordOf (v.octet 12) (v.octet 13) = u.linkType)

/-- The detail of a bad link header, CHECK 1 before LINK_LENGTH 3, or none when it is good (R36). -/
def Slot.linkFault (v : Slot) : Option Nat :=
  if !v.headerGood .pair then some 1
  else if v.length < 22 + v.payloadLen .pair then some 3
  else none

/-- The print kinds, 10h to 13h. -/
def printKind (k : Nat) : Bool := decide (0x10 ≤ k) && decide (k ≤ 0x13)

/-! ### The verdict record (section 3.7) -/

/-- Words 4–7 of the descriptor. -/
def Verdict.words (v : Verdict) : List Word :=
  octetPair v.code v.src ::
    match v.addr with
    | some x => addrWords x
    | none =>
      [octetPair v.dst v.detail,
        wordNat (v.mask % 16 + 16 * bitNat v.pairFlag + 32 * bitNat v.bufferHeld +
          256 * (v.job % 32) + 8192 * (v.printer % 8)),
        wordNat v.reason]

/-! ### Trunk masks (R86) -/

/-- The trunks below NT that are connected, but for those a test leaves out. -/
def Chip.trunkMask (c : Chip) (f : Nat → Bool) : Nat :=
  ((List.range 4).map fun t => bitNat (c.trunkUp t && f t) * 2 ^ t).sum

/-- The broadcast mask of trunk `t`. -/
def Chip.broadcastMask (c : Chip) (t : Nat) : Nat := c.trunkMask fun k => decide (k ≠ t)

/-- The full broadcast mask. -/
def Chip.fullMask (c : Chip) : Nat := c.trunkMask fun _ => true

/-- A trunk is cut, or numbered NT or above (R84, R91). -/
def Chip.trunkGone (c : Chip) (t : Nat) : Bool :=
  decide (c.ctl.unit.nt ≤ t) || (c.trunk t).state.cut

/-! ### Coax frames (R81 to R85) -/

/-- A coax frame's verdict by its destination entry `d` (R84, R85), from source `s` on trunk `t`. A UNIT
entry other than U does not arise. -/
def coaxToEntry (c : Chip) (t s d : Nat) : Verdict :=
  let e := c.station d
  match e.kind with
  | .legacy =>
    if e.trunk = t then { code := 1, src := s, dst := d }
    else if c.trunkGone e.trunk then { code := 14, src := s, dst := d, detail := 2 }
    else if e.quarantined then { code := 12, src := s, dst := d, detail := 2 }
    else { code := 2, src := s, dst := d, mask := 2 ^ e.trunk }
  | .proxy =>
    if e.quarantined then { code := 12, src := s, dst := d, detail := 2 }
    else { code := 3, src := s, addr := some e.addr }
  | .empty => { code := 5, src := s, dst := d, mask := c.broadcastMask t, pairFlag := true }
  | .unit => { code := 6, src := s, dst := d }

/-- The verdict of a coax frame with a good header, after its hearing (R81 steps 3 and 4, R82, R83). -/
def coaxRest (c : Chip) (heard : Heard) (v : Slot) : Verdict :=
  let t := v.trunk
  let s := v.src .coax
  let d := v.dst .coax
  let u := c.ctl.unit.u
  if v.malformed then
    { code := 11, detail := 2, src := if s = 255 then 0 else s, dst := if d = 255 then 0 else d }
  else if heard = .clash then { code := 13, src := s, dst := d }
  else if (c.station s).quarantined then { code := 12, src := s, dst := d, detail := 1 }
  else if u ≠ 0 ∧ d = u ∧ printKind (v.kind .coax) then { code := 7, src := s, dst := u }
  else if d = 0 then { code := 4, src := s, mask := c.broadcastMask t, pairFlag := true }
  else if u ≠ 0 ∧ d = u then { code := 6, src := s, dst := u }
  else coaxToEntry c t s d

/-- The station unit's work on a coax frame with a connected trunk: the hearing of a good header's source,
then the verdict (R81). -/
def coaxStation (g : Give) (v : Slot) (c : Chip) : Verdict × Heard × Chip :=
  if !v.headerGood .coax then ({ code := 11, detail := 1 }, .taken, c)
  else
    let s := v.src .coax
    let h := if s = 0 ∨ s = 255 then (.taken, c) else hear g s v.trunk c
    (coaxRest h.2 h.1 v, h.1, h.2)

/-! ### Pair frames (R87 to R91) -/

/-- The reading of a destination address M (R67, R88): the destination station and whether the frame is
addressed to the unit, or none. The all-ones address is read by the embedded destination whatever the
alias block (assumption 29). -/
def readDest (u : UnitRec) (m : NewAddr) (embedded : Nat) : Option (Nat × Bool) :=
  let station := fun n => if n = 255 then none else some (n, decide (u.u ≠ 0) && decide (n = u.u))
  if m = allOnes then station embedded
  else if u.inAliasBlock m then
    if aliasOctet m = 0 then some (u.u, true) else station (aliasOctet m)
  else none

/-- A pair frame's verdict by its destination entry `d`, 1–254 and not U (R91), from proxy `p`. A UNIT
entry other than U does not arise. -/
def pairToEntry (c : Chip) (p d : Nat) : Verdict :=
  let e := c.station d
  match e.kind with
  | .legacy =>
    if c.trunkGone e.trunk then { code := 14, src := p, dst := d, detail := 2 }
    else if e.quarantined then { code := 12, src := p, dst := d, detail := 2 }
    else { code := 2, src := p, dst := d, mask := 2 ^ e.trunk }
  | .proxy => { code := 1, src := p, dst := d }
  | .empty => { code := 5, src := p, dst := d, mask := c.fullMask }
  | .unit => { code := 6, src := p, dst := d }

/-- The verdict of a link frame once lookup has given proxy `p` (R89 step 6, R90, R91). -/
def pairRest (c : Chip) (p d : Nat) (toUnit : Bool) (v : Slot) : Verdict :=
  if (c.station p).quarantined then { code := 12, src := p, dst := d, detail := 1 }
  else if toUnit ∧ printKind (v.kind .pair) then { code := 7, src := p, dst := d }
  else if toUnit then { code := 6, src := p, dst := d }
  else if d = 0 then { code := 4, src := p, mask := c.fullMask }
  else pairToEntry c p d

/-- The station unit's work on a pair frame, in the order of R87 to R91. -/
def pairStation (g : Give) (v : Slot) (c : Chip) : Verdict × Chip :=
  if v.err .pair ≠ 0 then ({ code := 10, detail := v.err .pair }, c)
  else if !v.link c.ctl.unit then ({ code := 8 }, c)
  else
    match readDest c.ctl.unit v.destAddr (v.dst .pair) with
    | none => ({ code := 8 }, c)
    | some (d, toUnit) =>
      match v.linkFault with
      | some detail => ({ code := 11, detail := detail }, c)
      | none =>
        let l := lookup g v.sourceAddr c
        match l.1 with
        | .clash => ({ code := 13, dst := d }, l.2)
        | .noProxy => ({ code := 9, dst := d }, l.2)
        | .number p => (pairRest l.2 p d toUnit v, l.2)

end Sys2Proof.Machine
end

