-- ==== Sys2Proof/Machine/Frames.lean ====
section
/-! DEFINITION. The frame unit: contexts and header capture (R37, R38), completions and stage one (R39 to
R41), the frame at evaluation and its fetches (R42, R43, R131), stage two (R44), release and cancellation
(R45 to R47), STOP (R29) and the transmit guard (R93, R94). -/

namespace Sys2Proof.Machine

/-! ### Contexts and header capture (R37, R38) -/

/-- A context made to name descriptor `i`: emptied first unless it names it already (R37). -/
def Ctx.naming (x : Ctx) (i : Nat) : Ctx :=
  if x.index = some i then x else { Ctx.blank with index := some i }

/-- A context that takes a new value for an address part: the captured octets and the length go when the
part was held and differs (R37). -/
def Ctx.checked (x : Ctx) (old : Option Word) (new : Word) : Ctx :=
  match old with
  | some w => if w = new then x else { x with octets := [], len := none }
  | none => x

/-- The high part of a buffer address: bits 3–0 of descriptor word 2 (section 3.1). -/
def highPart (d : Word) : Word := wordNat (d.toNat % 16)

/-- A receive engine's read of word `w` of descriptor `i` of its own ring, which returned `d` (R37). -/
def readPart (e : Engine) (i w : Nat) (d : Word) (c : Chip) : Chip :=
  let x := (c.ctx e).naming i
  if w = 1 then c.putCtx e { x.checked x.lo d with lo := some d }
  else if w = 2 then c.putCtx e { x.checked x.hi (highPart d) with hi := some (highPart d) }
  else c

/-- The buffer address of a context, once both parts are held. -/
def Ctx.buffer (x : Ctx) : Option Nat :=
  match x.lo, x.hi with
  | some l, some h => some (h.toNat % 16 * 65536 + l.toNat)
  | _, _ => none

/-- The last word of an engine's capture window: plus 3 for coax, plus 10 for pair (R38). -/
def windowLast : Engine → Nat
  | .coax => 3
  | .pair => 10

/-- A header octet stored and marked captured. -/
def captureOctet (t : Table (Option Octet)) (k : Nat) (v : Octet) : Table (Option Octet) :=
  tset none t k (some v)

/-- The octets of header word `k` that the byte enables select, captured. -/
def captureWord (t : Table (Option Octet)) (k : Nat) (be : BitVec 2) (d : Word) : Table (Option Octet) :=
  let t := if be.getLsbD 1 then captureOctet t (2 * k) (hiOctet d) else t
  if be.getLsbD 0 then captureOctet t (2 * k + 1) (loOctet d) else t

/-- A write by engine `e` at address `a`, captured against its context (R38): header octets in the window,
and the received length by a full-word write of word 3 of the context's own descriptor. -/
def captureWrite (e : Engine) (region : Region) (a : Nat) (be : BitVec 2) (d : Word) (c : Chip) : Chip :=
  let x := c.ctx e
  match x.buffer with
  | none => c
  | some b =>
    let k := (a + Config.memoryWords - b) % Config.memoryWords
    let x := if k ≤ windowLast e then { x with octets := captureWord x.octets k be d } else x
    let own := match region with
      | .receive r off => decide (r = e) && decide (x.index = some (off / 8)) && decide (off % 8 = 3)
      | _ => false
    c.putCtx e (if own && fullWord be then { x with len := some d } else x)

/-- The context of an engine emptied if it names descriptor `i` (R39). -/
def dropContext (e : Engine) (i : Nat) (c : Chip) : Chip :=
  if (c.ctx e).index = some i then c.putCtx e Ctx.blank else c

/-! ### What a frame at evaluation lacks (R42, R43, R131) -/

/-- The frame at evaluation of an engine: the oldest still in HELD_WAITING (R42). -/
def Chip.atEvaluation (c : Chip) (e : Engine) : Option Slot :=
  (c.held e).find? fun v => decide (v.phase = .heldWaiting)

/-- Both octets of header word `k` are captured. -/
def Slot.wordCaptured (v : Slot) (k : Nat) : Bool := v.captured (2 * k) && v.captured (2 * k + 1)

/-- A pair frame's word 6 is captured and shows no link frame. -/
def Slot.knownNotLink (u : UnitRec) (v : Slot) : Bool := v.wordCaptured 6 && !v.link u

/-- The last header word a frame needs (R38, R43). -/
def Slot.lastWord (u : UnitRec) (e : Engine) (v : Slot) : Nat :=
  match e with
  | .coax => 3
  | .pair => if v.knownNotLink u then 6 else 10

/-- The first header word needed that holds an uncaptured octet. -/
def Slot.missingWord (u : UnitRec) (e : Engine) (v : Slot) : Option Nat :=
  (List.range (v.lastWord u e + 1)).find? fun k => !v.wordCaptured k

/-- A frame that needs no header: its verdict is fixed, or it is a pair frame with CHECK, RUNT or TOO_LONG
(R42). -/
def Slot.needsNothing (e : Engine) (v : Slot) : Bool :=
  v.fixed.isSome || (decide (e = .pair) && decide (v.err .pair ≠ 0))

/-- A frame with a complete header whose PRINT_OPEN payload word is needed and not yet there (R131). -/
def Slot.wantsPayload (u : UnitRec) (e : Engine) (v : Slot) : Bool :=
  (decide (e = .coax) || v.link u) && decide (v.kind e = 0x10) && decide (v.payloadLen e ≠ 0) &&
    v.payload.isNone

/-- The first word of a frame's payload: buffer word 4, or 11 in a link frame. -/
def payloadWord : Engine → Nat
  | .coax => 4
  | .pair => 11

/-- The fetch a frame at evaluation needs next: its purpose, first address and count; none when it has
everything (R43, R131). -/
def Slot.wants (u : UnitRec) (e : Engine) (v : Slot) : Option (Purpose × Nat × Nat) :=
  if v.needsNothing e then none
  else if v.lo.isNone ∨ v.hi.isNone ∨ v.len.isNone then some (.descriptorFetch e v.id, v.word0 + 1, 3)
  else
    match v.missingWord u e with
    | some k => some (.headerFetch e v.id k, v.buffer + k, v.lastWord u e + 1 - k)
    | none =>
      if v.wantsPayload u e then some (.payloadFetch e v.id, v.buffer + payloadWord e, 1) else none

/-- A held list with the slot of one name replaced. -/
def putSlot (l : List Slot) (v : Slot) : List Slot := l.map fun w => if w.id = v.id then v else w

/-- The frame at evaluation's next fetch formed, if it lacks something and has none under way (R43,
assumption 24). -/
def startEvaluation (e : Engine) (c : Chip) : Chip :=
  match c.atEvaluation e with
  | none => c
  | some v =>
    if v.fetching then c
    else
      match v.wants c.ctl.unit e with
      | none => c
      | some (p, a, n) =>
        formFetch .frame p (a % Config.memoryWords) n
          (c.putHeld e (putSlot (c.held e) { v with fetching := true }))

/-! ### Fetched data (R43, R131) -/

/-- Header word `k` of fetched data filled into a slot: uncaptured octets only, and nothing after word 6
of a pair frame that shows no link frame. -/
def fillWord (u : UnitRec) (e : Engine) (k : Nat) (d : Word) (v : Slot) : Slot :=
  if e = .pair ∧ 7 ≤ k ∧ v.knownNotLink u then v
  else
    let o := if v.captured (2 * k) then v.octets else captureOctet v.octets (2 * k) (hiOctet d)
    { v with octets := if v.captured (2 * k + 1) then o else captureOctet o (2 * k + 1) (loOctet d) }

/-- The header words of a fetch filled in, from word `k` on. -/
def fillWords (u : UnitRec) (e : Engine) : Nat → List Word → Slot → Slot
  | _, [], v => v
  | k, d :: ds, v => fillWords u e (k + 1) ds (fillWord u e k d v)

/-- Descriptor words 1–3 filled in: whichever of the address and the length the slot lacks (R43,
assumption 30). -/
def fillDescriptor (ws : List Word) (v : Slot) : Slot :=
  let lacks := v.lo.isNone || v.hi.isNone
  { v with
    lo := if lacks then some (ws.getD 0 0) else v.lo,
    hi := if lacks then some (highPart (ws.getD 1 0)) else v.hi,
    len := if v.len.isNone then some (ws.getD 2 0) else v.len }

/-- The slot of one name changed by its fetched data; the next fetch follows if one is needed. -/
def fetched (e : Engine) (id : Nat) (f : Slot → Slot) (c : Chip) : Chip :=
  startEvaluation e (c.putHeld e ((c.held e).map fun v =>
    if v.id = id then { f v with fetching := false } else v))

/-- The data of a frame unit's fetch taken (R43, R131). -/
def frameFetched (p : Purpose) (ws : List Word) (c : Chip) : Chip :=
  match p with
  | .descriptorFetch e id => fetched e id (fillDescriptor ws) c
  | .headerFetch e id k => fetched e id (fillWords c.ctl.unit e k ws) c
  | .payloadFetch e id => fetched e id (fun v => { v with payload := some (ws.getD 0 0) }) c
  | _ => c

/-! ### Cancellation (R46, R47, R48) -/

/-- A queue entry that belongs to the held slot `id` of engine `e`. -/
def Purpose.ofSlot (e : Engine) (id : Nat) : Purpose → Bool
  | .verdictWords e' _ id' => decide (e' = e) && decide (id' = id)
  | .statusWord e' _ id' => decide (e' = e) && decide (id' = id)
  | .descriptorFetch e' id' => decide (e' = e) && decide (id' = id)
  | .headerFetch e' id' _ => decide (e' = e) && decide (id' = id)
  | .payloadFetch e' id' => decide (e' = e) && decide (id' = id)
  | _ => false

/-- The slot freed: the later slots move up. -/
def dropSlot (e : Engine) (id : Nat) (c : Chip) : Chip :=
  c.putHeld e ((c.held e).filter fun v => decide (v.id ≠ id))

/-- A held slot cancelled (R46, R47): its fetches or release deposits go, it frees, the event is recorded,
and then the next frame may take its place at evaluation (assumption 52). -/
def cancelSlot (e : Engine) (v : Slot) (c : Chip) : Chip :=
  startEvaluation e (recordEvent (evVerdictDiscarded v.index e v.phase)
    (dropSlot e v.id (withdrawFrame (Purpose.ofSlot e v.id) c)))

/-- The slots of engine `e` that a write at address `a` falls in, by the eight words from word 0 (R48). -/
def Chip.slotsAt (c : Chip) (e : Engine) (a : Nat) : List Slot :=
  (c.held e).filter fun v => inRun v.word0 8 a

/-- The cancellations of a write by any master in a receive ring (R46, R47). Where it falls in two slots of the
list, the older is cancelled first (assumption 63). -/
def cancelAt (region : Region) (a : Nat) (c : Chip) : Chip :=
  match region with
  | .receive e _ => (c.slotsAt e a).foldl (fun c v => cancelSlot e v c) c
  | _ => c

/-! ### Completions (R39 to R41) -/

/-- The engine and descriptor index of a completion: a receive engine's full-word write of word 0 of its
own receive ring with owner PROCESSOR (R39). -/
def Access.completion (x : Access) : Option (Engine × Nat) :=
  match x.region, masterEngine x.master with
  | .receive e off, some m =>
    if m = e ∧ x.write ∧ fullWord x.be ∧ off % 8 = 0 ∧ ownerField x.data = 1 then some (e, off / 8) else none
  | _, _ => none

/-- The verdict fixed at completion, none when the frame is to be evaluated (R41). -/
def fixedVerdict (c : Chip) (e : Engine) (w : Word) : Option Verdict :=
  match e with
  | .coax =>
    let t := trunkField w
    let err := coaxError w
    if c.ctl.unit.nt ≤ t then some { code := 10, detail := 128 + err }
    else if 6 ≤ err then some { code := 10, detail := err }
    else if (c.trunk t).state.cut then some { code := 14, detail := 1 }
    else none
  | .pair => if pairError w = 4 then some { code := 10, detail := 4 } else none

/-- The slot a completion of descriptor `i` takes, with what its engine's context holds of it (R39). -/
def newSlot (c : Chip) (e : Engine) (i a : Nat) (w : Word) : Slot :=
  let x := if (c.ctx e).index = some i then c.ctx e else Ctx.blank
  { id := c.path.serial, index := i, word0 := a, saved := wordNat (w.toNat % 16384), lo := x.lo,
    hi := x.hi, len := x.len, octets := x.octets, payload := none, phase := .heldWaiting,
    fixed := fixedVerdict c e w, fetching := false }

/-- Stage one of a completion (R40): a coax frame's trunk and error kind handed to the health unit. -/
def completionStageOne (e : Engine) (w : Word) (c : Chip) : Chip :=
  match e with
  | .coax => stageOne top (trunkField w) (coaxError w) c
  | .pair => c

/-- A completion taken into the held list (R39): the slot, the context, stage one, and its place at
evaluation when it is the oldest waiting. -/
def takeCompletion (e : Engine) (i a : Nat) (w : Word) (c : Chip) : Chip :=
  let v := newSlot c e i a w
  let c := c.withPath { c.path with serial := c.path.serial + 1 }
  let c := dropContext e i (c.putHeld e (c.held e ++ [v]))
  startEvaluation e (completionStageOne e w c)

/-! ### Stage two (R42 to R45) -/

/-- The frame at evaluation has everything it needs (R42). -/
def Slot.ready (u : UnitRec) (e : Engine) (v : Slot) : Bool := (v.wants u e).isNone

/-- The print frame of a held frame, as handed on with owner station `s` (R92, R131). -/
def Slot.printFrame (e : Engine) (s : Nat) (v : Slot) : PrintFrame :=
  { owner := s, kind := v.kind e, seq := v.seq e, len := v.payloadLen e,
    addr := (v.buffer + payloadWord e) % Config.memoryWords, srcRing := engineCode e, srcIndex := v.index,
    printer := if v.payloadLen e = 0 then none else v.payload.map fun d => (hiOctet d).toNat }

/-- The print unit's part in stage two: a TO_PRINT verdict completed (R92, R132). -/
def stagePrint (g : Give) (e : Engine) (v : Slot) (r : Verdict) (c : Chip) : Verdict × Chip :=
  if r.code = 7 then
    let o := printFrame g (v.printFrame e r.src) c
    ({ r with
        detail := o.1.detail, reason := o.1.reason, job := o.1.job, printer := o.1.printer,
        bufferHeld := o.1.held }, o.2)
  else (r, c)

/-- The health unit's part in stage two of a coax frame (R99, R100): the trunk charge, then the station
charge. -/
def stageHealth (g : Give) (v : Slot) (heard : Heard) (c : Chip) : Chip :=
  let h := c.ctl.health
  if !v.headerGood .coax then chargeTrunk g v.trunk h.header c
  else
    let c := if v.malformed then chargeTrunk g v.trunk h.malformed c else c
    let s := v.src .coax
    if s = 0 ∨ s = 255 ∨ heard = .clash ∨ (c.station s).kind ≠ .legacy then c
    else
      chargeStation g s
        ((if v.err .coax = 3 then h.stationLong else 0) + (if v.mismatch then h.stationMismatch else 0) +
          (if heard = .flap then h.stationConflict else 0)) c

/-- Stage two of a frame that has what it needs: its verdict, through the station, health and print units
(R44). A fixed verdict is shown to none of them (R41). -/
def evaluate (g : Give) (e : Engine) (v : Slot) (c : Chip) : Verdict × Chip :=
  match v.fixed with
  | some r => (r, c)
  | none =>
    match e with
    | .coax =>
      if (c.trunk v.trunk).state.cut then ({ code := 14, detail := 1 }, c)
      else
        let r := coaxStation g v c
        stagePrint g .coax v r.1 (stageHealth g v r.2.1 r.2.2)
    | .pair =>
      let r := pairStation g v c
      stagePrint g .pair v r.1 r.2

/-- A frame put into RELEASING with its two release deposits: the verdict words, then the status word with
owner PROCESSOR (R45). -/
def releaseFrame (e : Engine) (v : Slot) (r : Verdict) (c : Chip) : Chip :=
  let c := c.putHeld e (putSlot (c.held e) { v with phase := .releasing, fetching := false })
  let c := formDeposit .frame (.verdictWords e v.index v.id) (v.word0 + 4) r.words c
  formDeposit .frame (.statusWord e v.index v.id) v.word0 [withOwner v.saved 1] c

/-- Stage two of engine `e`'s frame at evaluation, in RUN, once it has everything it needs (R42). -/
def stageTwo (e : Engine) (c : Chip) : Chip :=
  match c.atEvaluation e with
  | none => c
  | some v =>
    if c.ctl.mode = .run ∧ v.ready c.ctl.unit e then
      let r := evaluate top e v c
      startEvaluation e (releaseFrame e v r.1 r.2)
    else c

/-! ### STOP (R29) -/

/-- A held frame still in HELD_WAITING released with STOPPED, its fetches withdrawn. -/
def stopFrame (e : Engine) (c : Chip) (v : Slot) : Chip :=
  if v.phase = .heldWaiting then
    releaseFrame e v { code := 15 } (withdrawFrame (Purpose.ofSlot e v.id) c)
  else c

/-- Every held frame in HELD_WAITING released: the coax list, then the pair list, in order. -/
def stopFrames (c : Chip) : Chip :=
  let c := (c.held .coax).foldl (stopFrame .coax) c
  (c.held .pair).foldl (stopFrame .pair) c

/-! ### Frames a station command waits for (R62) -/

/-- Header octet `k` is captured and holds `s`. -/
def Slot.octetIs (v : Slot) (k s : Nat) : Bool := decide ((tget none v.octets k).map (·.toNat) = some s)

/-- Octets `k` to `k + 5` are all captured. -/
def Slot.addrCaptured (v : Slot) (k : Nat) : Bool := (List.range 6).all fun i => v.captured (k + i)

/-- A held frame refers to station entry `s` (R62, assumption 25). -/
def Chip.refersTo (c : Chip) (e : Engine) (s : Nat) (v : Slot) : Bool :=
  match e with
  | .coax => v.octetIs 0 s || v.octetIs 1 s
  | .pair =>
    (v.addrCaptured 0 && decide (v.destAddr = c.ctl.unit.aliasAddr s)) ||
      (!v.knownNotLink c.ctl.unit && v.octetIs 14 s) ||
      (v.addrCaptured 6 && decide ((c.station s).kind = .proxy) &&
        decide (v.sourceAddr = (c.station s).addr))

/-- The HELD_WAITING frames of an engine that refer to station entry `s`; numbers 0 and 255 have no entry
(assumption 28). -/
def Chip.framesFor (c : Chip) (e : Engine) (s : Nat) : List Nat :=
  if s = 0 ∨ 255 ≤ s then []
  else
    ((c.held e).filter fun v => decide (v.phase = .heldWaiting) && c.refersTo e s v).map fun v => v.id

/-- A slot of this name is still in HELD_WAITING. -/
def Chip.stillHeld (c : Chip) (id : Nat) : Bool :=
  (c.held .coax ++ c.held .pair).any fun v => decide (v.id = id) && decide (v.phase = .heldWaiting)

/-! ### The transmit guard (R93, R94) -/

/-- The trunk mask of a hand-over write, stripped: bits of trunks that are cut, or numbered NT or above,
are cleared. -/
def Chip.strippedMask (c : Chip) (w : Word) : Nat :=
  ((List.range 4).map fun t => bitNat (bitOf w (8 + t) && !c.trunkGone t) * 2 ^ t).sum

/-- A status word with its trunk mask, owner and SKIPPED bit replaced (R94). -/
def guardedWord (w : Word) (owner mask : Nat) (skipped : Bool) : Word :=
  wordNat (owner * 16384 + bitsOf w 12 2 * 4096 + mask * 256 + bitsOf w 1 7 * 2 + bitNat skipped)

/-- The guard's rewrite of a hand-over write (R94). -/
def Chip.guard (c : Chip) (w : Word) : Word :=
  if c.strippedMask w = 0 then guardedWord w 1 0 true
  else guardedWord w (ownerField w) (c.strippedMask w) false

/-- The guard acts on an access (R93). -/
def Chip.guards (c : Chip) (x : Access) : Bool :=
  match x.region with
  | .transmit off =>
    decide (c.ctl.mode = .run) && decide (x.master = .processor) && x.write && fullWord x.be &&
      decide (off % 8 = 0) && decide (ownerField x.data ≠ 1)
  | _ => false

/-- What the guard records of an access it acts on (R94). -/
def guardRecord (x : Access) (c : Chip) : Chip :=
  match x.region with
  | .transmit off =>
    if c.strippedMask x.data = 0 then recordEvent (evGuardSkipped (off / 8) (bitsOf x.data 8 4)) c else c
  | _ => c

end Sys2Proof.Machine
end

