-- ==== Sys2Proof/Machine/Control.lean ====
section
/-! DEFINITION. The control unit's records: what each holds as staged (sections 2.3, 4.2, 7.4, 9.2, 10.2,
11.1 to 11.3), validation (R19, R20, R111, R134, R153, R163, R167, R171), update classes and the gate (R21,
R22), and what a unit record commit does (R23). -/

namespace Sys2Proof.Machine

/-! ### Fields of the staged records -/

/-- Word `i` of a record as staged (R18). -/
def Chip.recordWord (c : Chip) (id : RecordId) (i : Nat) : Nat := (c.staged (stagingKey id i)).toNat

/-- The high and the low octet of a word's number. -/
def hiNat (n : Nat) : Nat := n / 256
def loNat (n : Nat) : Nat := n % 256

/-- The unit record (R20). -/
def unitRecOf (w : Nat → Nat) : UnitRec :=
  { nt := clampTo 1 4 (w 0)
    np := clampTo 0 8 (w 1)
    nr := clampTo 0 16 (w 2)
    c := clampTo 0 3 (w 3)
    u := clampTo 0 254 (w 4)
    pLo := clampTo 1 254 (w 5)
    pHi := clampTo 1 254 (w 6)
    aliasBase := BitVec.ofNat 48 (w 7 * 4294967296 + w 8 * 65536 + hiNat (w 9) * 256)
    linkType := wordNat (w 10) }

/-- A ring or printer ring base of two words, the upper 12 bits of the second ignored. -/
def ringBase (lo hi : Nat) : Nat := hi % 16 * 65536 + lo

/-- A ring record (R20). -/
def ringRecOf (w : Nat → Nat) : RingRec := { base := ringBase (w 0) (w 1), e := clampTo 3 8 (w 2) }

/-- The health record (R111). -/
def healthRecOf (w : Nat → Nat) : HealthRec :=
  let ti := clampTo 1 65535 (w 7)
  { bodyCrc := hiNat (w 0)
    short := loNat (w 0)
    long := hiNat (w 1)
    code := loNat (w 1)
    reflection := hiNat (w 2)
    header := loNat (w 2)
    malformed := hiNat (w 3)
    goodCredit := loNat (w 3)
    decayFactor := hiNat (w 4)
    stationStep := loNat (w 4)
    decayInterval := clampTo 1 65535 (w 5)
    tw := min (clampTo 1 65535 (w 6)) ti
    ti := ti
    holdBase := clampTo 1 65535 (w 8)
    holdMax := clampTo 1 65535 (w 9)
    trial := clampTo 1 65535 (w 10)
    clearInterval := clampTo 1 65535 (w 11)
    stationLong := hiNat (w 12)
    stationMismatch := loNat (w 12)
    stationConflict := hiNat (w 13)
    stationLimit := clampTo 1 255 (loNat (w 13))
    maxStrikes := clampTo 1 15 (loNat (w 15)) }

/-- The print record (R134). -/
def printRecOf (w : Nat → Nat) : PrintRec :=
  { idleLimit := w 0, grace := clampTo 1 65535 (w 1), waitCap := clampTo 1 16 (w 7) }

/-- The aging record (section 4.2). -/
def agingRecOf (w : Nat → Nat) : AgingRec :=
  { silence := clampTo 1 65535 (w 0), removal := w 1, proxyFree := w 2, reclaimMin := w 3,
    flapWindow := clampTo 0 600 (w 7) }

/-- Line functions by their codes. -/
def lineFnOf : Nat → Option LineFn
  | 0 => some .unused
  | 1 => some .input
  | 2 => some .output
  | 3 => some .relay
  | 4 => some .trunkLamp
  | 5 => some .printerLamp
  | 6 => some .printerReady
  | _ => none

/-- Rest levels by their codes. -/
def levelOf : Nat → Option Level
  | 0 => some .low
  | 1 => some .high
  | 2 => some .undriven
  | _ => none

/-- A line record, none when a code is not defined (section 11.2). -/
def lineRecOf (w : Nat → Nat) : Option LineRec :=
  match lineFnOf (w 0 % 16), levelOf (w 1 / 2 % 4) with
  | some f, some r =>
    let o := w 0 / 256 % 8
    some
      { fn := f, obj := if f = .relay ∨ f = .trunkLamp then min 3 o else o,
        activeLow := decide (w 1 % 2 = 1), rest := r }
  | _, _ => none

/-- A timer record (section 11.1). -/
def timerRecOf (w : Nat → Nat) : TimerRec := { period := w 0, repeats := decide (w 1 % 2 = 1) }

/-- Pair modes by their codes. -/
def pairModeCode : Nat → Option PairMode
  | 0 => some .independent
  | 1 => some .failover
  | 2 => some .alternate
  | _ => none

/-- Printer record `p`, none when an even printer's pair mode is not defined (R153). -/
def printerRecOf (p : Nat) (w : Nat → Nat) : Option PrinterRec :=
  let r := fun m =>
    { enabled := decide (w 0 % 2 = 1), base := ringBase (w 1) (w 2), e := clampTo 3 6 (w 3),
      pairMode := m, swap := decide (w 5 % 2 = 1) : PrinterRec }
  if p % 2 = 0 then (pairModeCode (w 4)).map r else some (r .independent)

/-- Trigger kinds by their codes. -/
def triggerKindOf : Nat → Option TriggerKind
  | 0 => some .none
  | 1 => some .trunkEnters
  | 2 => some .stationQuarantined
  | 3 => some .printerStalled
  | 4 => some .printerEntersReady
  | 5 => some .jobDone
  | 6 => some .jobAbandoned
  | 7 => some .timer
  | 8 => some .lineRise
  | 9 => some .lineFall
  | 10 => some .proxyPoolEmpty
  | _ => none

/-- Trunk states by their codes (R31). -/
def trunkStateOf : Nat → Option TrunkState
  | 0 => some .disabled
  | 1 => some .inService
  | 2 => some .watch
  | 3 => some .isolated
  | 4 => some .trial
  | 5 => some .lockedOut
  | _ => none

/-- Action kinds by their codes. -/
def actionKindOf : Nat → Option ActionKind
  | 0 => some .none
  | 1 => some .startTimer
  | 2 => some .stopTimer
  | 3 => some .setLineHigh
  | 4 => some .setLineLow
  | 5 => some .isolateTrunk
  | 6 => some .releaseTrunk
  | 7 => some .holdPrinter
  | 8 => some .resumePrinter
  | 9 => some .note
  | _ => none

/-- A trigger's object clamped to its range (R171). -/
def clampTriggerObj (k : TriggerKind) (o : Nat) : Nat :=
  match k with
  | .trunkEnters => min 3 o
  | .timer => min 3 o
  | .printerStalled => min 7 o
  | .printerEntersReady => min 7 o
  | .jobDone => min 7 o
  | .jobAbandoned => min 7 o
  | .lineRise => min 7 o
  | .lineFall => min 7 o
  | .none => o
  | .stationQuarantined => o
  | .proxyPoolEmpty => o

/-- An action's object clamped to its range (R171). -/
def clampActionObj (k : ActionKind) (o : Nat) : Nat :=
  match k with
  | .startTimer => min 3 o
  | .stopTimer => min 3 o
  | .setLineHigh => min 7 o
  | .setLineLow => min 7 o
  | .isolateTrunk => min 3 o
  | .releaseTrunk => min 3 o
  | .holdPrinter => min 7 o
  | .resumePrinter => min 7 o
  | .none => o
  | .note => o

/-- A reaction record, none when a code is not defined; the trigger state is tested whatever the trigger
kind (R171, assumption 31). -/
def reactionRecOf (w : Nat → Nat) : Option ReactionRec :=
  match triggerKindOf (hiNat (w 0)), trunkStateOf (w 1), actionKindOf (hiNat (w 2)) with
  | some t, some st, some a =>
    some
      { trigger := t, triggerObj := clampTriggerObj t (loNat (w 0)), triggerState := st, action := a,
        actionObj := clampActionObj a (loNat (w 2)), enabled := decide (w 3 % 2 = 1),
        once := decide (w 3 / 2 % 2 = 1) }
  | _, _, _ => none

/-! ### Validation (R19, R20, R23, R153) -/

/-- A ring of `len` words from `b` runs past the last word of memory, or overlaps the control area. -/
def Chip.badRegion (c : Chip) (b len : Nat) : Bool :=
  decide (Config.memoryWords < b + len) ||
    (decide (b < c.base + Config.controlWords) && decide (c.base < b + len))

/-- A validated commit of a record, or the reason it is refused; WRONG_MODE comes before the others
(assumption 32), and UNKNOWN_CODE before REGION (assumption 51). -/
def Chip.validate (c : Chip) (id : RecordId) : Except RefuseReason RecordVal :=
  let w := c.recordWord id
  let coded := fun (v : Option RecordVal) =>
    match v with
    | some r => (Except.ok r : Except RefuseReason RecordVal)
    | none => Except.error .unknownCode
  match id with
  | .unit =>
    let r := unitRecOf w
    if c.ctl.mode = .run then .error .wrongMode
    else if r.u ≠ 0 ∧ (c.station r.u).openJob.isSome then .error .jobOpen
    else .ok (.unit r)
  | .ring k =>
    let r := ringRecOf w
    if c.ctl.mode = .run then .error .wrongMode
    else if c.badRegion r.base (ringWords r.e) then .error .region
    else .ok (.ring k r)
  | .health => .ok (.health (healthRecOf w))
  | .print => .ok (.print (printRecOf w))
  | .aging => .ok (.aging (agingRecOf w))
  | .line l => coded ((lineRecOf w).map (.line l))
  | .timer k => .ok (.timer k (timerRecOf w))
  | .printer p =>
    match printerRecOf p w with
    | none => .error .unknownCode
    | some r =>
      if r.enabled ∧ c.badRegion r.base (ringWords r.e) then .error .region else .ok (.printer p r)
  | .reaction k => coded ((reactionRecOf w).map (.reaction k))

/-! ### A unit record commit (R23) -/

/-- The event unit's part (R180): waiting deposits dropped, queued ones counting for nothing, indices and
counts at 0, the producer deposit, OVERFLOW when the set is not empty. -/
def resetEvents (c : Chip) : Chip :=
  let c := c.withPath { c.path with
    waitEvent := []
    queue := c.path.queue.map fun e => if e.owner = .event then { e with purpose := .uncounted } else e }
  let c := redriveNotice (c.withEvt { c.evt with
    producer := 0, shown := 0, consumer := 0, sequence := 0, unread := [] })
  let c := formDeposit .event .uncounted (c.base + 24) [0] c
  if c.evt.overflow ≠ 0 then formOverflow c else c

/-- The trunks that a new NT makes absent or present (R124), in ascending number (assumption 53). -/
def trunksUnitCommit (g : Give) (old : Nat) (c : Chip) : Chip :=
  (List.range 4).foldl (fun c t =>
    if c.ctl.unit.nt ≤ t ∧ t < old then moveTrunk g t Trunk.absent .unitRecord c
    else if old ≤ t ∧ t < c.ctl.unit.nt then moveTrunk g t Trunk.fresh .unitRecord c
    else c) c

/-- The printers that a new NP takes out of force or brings into force (R23 step 4, R155), in ascending number,
which neither rule gives (assumption 58). -/
def printersUnitCommit (g : Give) (old : Nat) (c : Chip) : Chip :=
  (List.range 8).foldl (fun c p =>
    if c.ctl.unit.np ≤ p ∧ p < old then
      setPrinterState (serve g) g p .disabled .unitRecord (resetView p (takeBack (serve g) g p c))
    else if old ≤ p ∧ p < c.ctl.unit.np then
      setPrinterState (serve g) g p (if (c.printerRec p).enabled then .ready else .disabled) .unitRecord
        (resetView p c)
    else c) c

/-- A unit record takes effect, in R23's order: layout, events, trunks, printers, stations. The layout is new when
the event unit acts, so R180's OVERFLOW record lies in the new ring (assumption 65). -/
def applyUnitRec (g : Give) (v : UnitRec) (c : Chip) : Chip :=
  let old := c.ctl.unit
  let c := c.withCtl { c.ctl with unit := v, unitCommitted := true }
  stationsUnitCommit g old.nt
    (printersUnitCommit g old.np (trunksUnitCommit g old.nt (resetEvents c)))

/-! ### Taking effect, pending and awaiting (R21, R22) -/

/-- A ring record takes effect: its region comes into force and its engine's context is emptied (R20); the
coax transmit ring's engine is the coax engine (assumption 33). -/
def applyRingRec (k : Nat) (v : RingRec) (c : Chip) : Chip :=
  if k = 0 then (c.withCtl { c.ctl with coaxRing := some v }).putCtx .coax Ctx.blank
  else if k = 1 then (c.withCtl { c.ctl with pairRing := some v }).putCtx .pair Ctx.blank
  else (c.withCtl { c.ctl with transmitRing := some v }).putCtx .coax Ctx.blank

/-- A validated commit takes effect (R21). -/
def takeEffect (g : Give) (v : RecordVal) (c : Chip) : Chip :=
  match v with
  | .unit r => applyUnitRec g r c
  | .ring k r => applyRingRec k r c
  | .health r => c.withCtl { c.ctl with health := r }
  | .print r => c.withCtl { c.ctl with print := r }
  | .aging r => c.withCtl { c.ctl with aging := r }
  | .line l r => applyLineRec l r c
  | .timer k r => applyTimerRec k r c
  | .printer p r => applyPrinterRec (serve g) g p r c
  | .reaction k r => c.putReaction k r

/-- A commit that no gate holds proceeds by its class (R21): a boundary record becomes awaiting in RUN, and
a printer at its boundary takes its record at once (R154). -/
def proceed (g : Give) (v : RecordVal) (c : Chip) : Chip :=
  match v with
  | .health r =>
    if c.ctl.mode = .run then c.withCtl { c.ctl with awaitingHealth := some r } else takeEffect g v c
  | .printer p r =>
    if c.ctl.mode = .run ∧ p < c.ctl.unit.np then
      applyAwaiting (serve g) g p (c.putAwaitingPrinter p (some r))
    else takeEffect g v c
  | _ => takeEffect g v c

/-- The fields a commit carries, when it is of the record class asked. -/
def RecordVal.health? : RecordVal → Option HealthRec
  | .health r => some r
  | _ => none
def RecordVal.print? : RecordVal → Option PrintRec
  | .print r => some r
  | _ => none
def RecordVal.aging? : RecordVal → Option AgingRec
  | .aging r => some r
  | _ => none
def RecordVal.line? : RecordVal → Option LineRec
  | .line _ r => some r
  | _ => none
def RecordVal.timer? : RecordVal → Option TimerRec
  | .timer _ r => some r
  | _ => none
def RecordVal.printer? : RecordVal → Option PrinterRec
  | .printer _ r => some r
  | _ => none
def RecordVal.reaction? : RecordVal → Option ReactionRec
  | .reaction _ r => some r
  | _ => none

/-- A record's pending commit set, or discarded (R22). Unit and ring records have none. -/
def setPending (id : RecordId) (v : Option RecordVal) (c : Chip) : Chip :=
  let k := c.ctl
  match id with
  | .unit => c
  | .ring _ => c
  | .health => c.withCtl { k with pendingHealth := v.bind RecordVal.health? }
  | .print => c.withCtl { k with pendingPrint := v.bind RecordVal.print? }
  | .aging => c.withCtl { k with pendingAging := v.bind RecordVal.aging? }
  | .line l => c.withCtl { k with pendingLines := tset none k.pendingLines l (v.bind RecordVal.line?) }
  | .timer t => c.withCtl { k with pendingTimers := tset none k.pendingTimers t (v.bind RecordVal.timer?) }
  | .printer p =>
    c.withCtl { k with pendingPrinters := tset none k.pendingPrinters p (v.bind RecordVal.printer?) }
  | .reaction r =>
    c.withCtl { k with pendingReactions := tset none k.pendingReactions r (v.bind RecordVal.reaction?) }

/-- The update gate holds a record's commits: every class but PASS-only (R22). -/
def RecordId.gated : RecordId → Bool
  | .unit => false
  | .ring _ => false
  | _ => true

/-- CONFIG_REFUSED, with the offset of the record's first word (R19). -/
def refuseCommit (id : RecordId) (r : RefuseReason) (c : Chip) : Chip :=
  recordEvent (evConfigRefused r (recordFirst c.ctl.unit id)) c

/-- A commit by the processor's write of a record's last word (R18 to R22). -/
def commitRecord (g : Give) (id : RecordId) (c : Chip) : Chip :=
  match c.validate id with
  | .error r => refuseCommit id r c
  | .ok v => if id.gated ∧ c.ctl.gateClosed then setPending id (some v) c else proceed g v c

/-- A commit by LOAD: direct, whatever the gate, its pending commit discarded (R27). The flag says that it
was validated. -/
def commitDirect (g : Give) (id : RecordId) (c : Chip) : Bool × Chip :=
  match c.validate id with
  | .error r => (false, refuseCommit id r c)
  | .ok v => (true, takeEffect g v (setPending id none c))

/-- The pending commits, in ascending order of their records' offsets (R22). -/
def ControlUnit.pendingCommits (v : ControlUnit) : List RecordVal :=
  (v.pendingHealth.map RecordVal.health).toList ++ (v.pendingPrint.map RecordVal.print).toList ++
    ((List.range 8).filterMap fun l => (tget none v.pendingLines l).map (.line l)) ++
    ((List.range 4).filterMap fun k => (tget none v.pendingTimers k).map (.timer k)) ++
    (v.pendingAging.map RecordVal.aging).toList ++
    ((List.range 8).filterMap fun p => (tget none v.pendingPrinters p).map (.printer p)) ++
    (List.range 16).filterMap fun r => (tget none v.pendingReactions r).map (.reaction r)

/-- The pending set emptied. -/
def dropPending (c : Chip) : Chip :=
  c.withCtl { c.ctl with
    pendingHealth := none, pendingPrint := none, pendingAging := none, pendingLines := [],
    pendingTimers := [], pendingPrinters := [], pendingReactions := [] }

/-- A write of the update gate: 0 opens it, and every pending commit proceeds; any other value closes it
(R16, R22). -/
def gateWrite (g : Give) (d : Word) (c : Chip) : Chip :=
  if d = 0 then
    c.ctl.pendingCommits.foldl (fun c v => proceed g v c)
      (dropPending (c.withCtl { c.ctl with gateClosed := false }))
  else c.withCtl { c.ctl with gateClosed := true }

/-- A write of the notice mask: NOTICE is re-driven (R16, R179). -/
def noticeMaskWrite (d : Word) (c : Chip) : Chip :=
  redriveNotice (c.withCtl { c.ctl with noticeMask := loOctet d })

/-- A write of the record mask (R16). -/
def recordMaskWrite (d : Word) (c : Chip) : Chip := c.withCtl { c.ctl with recordMask := loOctet d }

/-- The awaiting commits take effect at STOP (R21, R29): health, then printers in ascending number (assumption
49). -/
def applyAwaitingAll (g : Give) (c : Chip) : Chip :=
  let c := match c.ctl.awaitingHealth with
    | some h => c.withCtl { c.ctl with health := h, awaitingHealth := none }
    | none => c
  (List.range 8).foldl (fun c p =>
    match c.awaitingPrinter p with
    | some r => applyPrinterRec (serve g) g p r (c.putAwaitingPrinter p none)
    | none => c) c

/-- A processor full-word write of a record's word: staged; the last word commits the record, but not in
LOADING (R18). -/
def recordWrite (g : Give) (id : RecordId) (i : Nat) (d : Word) (c : Chip) : Chip :=
  let c := c.stage (stagingKey id i) d
  if i + 1 = recordLength id ∧ c.ctl.mode ≠ .loading then commitRecord g id c else c

end Sys2Proof.Machine
end

