-- ==== Sys2Proof/Machine/Commands.lean ====
section
/-! DEFINITION. Commands: their taking, modes and replies (R26), and what each does: LOAD (R27), START (R28),
STOP (R29), RESTART (R30, R65), STATUS (R31), INQUIRE (R32), the station commands with their wait (R62),
and the rest by the operations of the units that own them. -/

namespace Sys2Proof.Machine

/-! ### Replies (R26) -/

/-- The reply formed: a deposit of words 5–7, offered once the entries named have joined the queue. The
command stays in progress until it is performed. -/
def replyAfter (tag : Octet) (after : List Nat) (d : Detail) (count : Nat) (c : Chip) : Chip :=
  formDeposit .control (.reply after) (c.base + 5)
    [octetPair (if d = .none then 1 else 2) tag.toNat, wordNat d.code, wordNat count]
    (c.setCommand (some { tag := tag, phase := .replying }))

/-- The reply of a command that formed the entries from `n` on. -/
def reply (tag : Octet) (n : Nat) (d : Detail) (count : Nat) (c : Chip) : Chip :=
  replyAfter tag (c.waitingSince n) d count c

/-- A command done by an operation of another unit, and its reply. -/
def answered (tag : Octet) (f : Chip → Answer) (c : Chip) : Chip :=
  let r := f c
  reply tag c.path.serial r.1 0 r.2

/-- Argument word A1–A4 as staged (R26). -/
def Chip.arg (c : Chip) (k : Nat) : Word := c.staged k

/-- The number in the low octet of A1. -/
def Chip.argLow (c : Chip) : Nat := (loOctet (c.arg 1)).toNat

/-! ### LOAD (R27) -/

/-- LOAD's fetches of `n` words from offset `off`, up to 16 words each, in address order; at most `fuel` of
them. -/
def formLoads : Nat → Nat → Nat → Chip → Chip
  | 0, _, _, c => c
  | fuel + 1, off, n, c =>
    if n = 0 then c
    else formLoads fuel (off + 16) (n - 16) (formFetch .control (.loadFetch off) (c.base + off) (min 16 n) c)

/-- The number of fetches that cover `n` words. -/
def loadCount (n : Nat) : Nat := (n + 15) / 16

/-- The words LOAD fetches beyond the fixed part, by the layout in force. -/
def UnitRec.loadWords (u : UnitRec) : Nat := 16 * u.np + 4 * u.nr

/-- What LOAD keeps as it takes words: fetches still to come, records committed. -/
structure LoadTally where
  left : Nat
  count : Nat
  deriving DecidableEq, Repr

/-- One fetched word taken as though the processor had written it, with R27's differences. After the unit
record's commit or refusal the fetches of the printer and reaction records are formed. -/
def loadWord (g : Give) (off : Nat) (d : Word) (t : LoadTally) (c : Chip) : LoadTally × Chip :=
  if off = 26 then (t, gateWrite g d c)
  else if off = 27 then (t, noticeMaskWrite d c)
  else if off = 28 then (t, recordMaskWrite d c)
  else
    match recordAt c.ctl.unit off with
    | none => (t, c)
    | some (id, i) =>
      let c := c.stage (stagingKey id i) d
      if i + 1 = recordLength id then
        let r := commitDirect g id c
        let t := { t with count := t.count + bitNat r.1 }
        if id = .unit then
          let n := r.2.ctl.unit.loadWords
          ({ t with left := t.left + loadCount n }, formLoads 12 128 n r.2)
        else (t, r.2)
      else (t, c)

/-- The words of one fetch taken, in address order. -/
def loadRun (g : Give) : Nat → List Word → LoadTally → Chip → LoadTally × Chip
  | _, [], t, c => (t, c)
  | off, d :: ds, t, c =>
    let r := loadWord g off d t c
    loadRun g (off + 1) ds r.1 r.2

/-- A LOAD fetch's data taken; after the last, the part returns to PASS and the reply is formed (R27). -/
def loadFetched (g : Give) (off : Nat) (ds : List Word) (c : Chip) : Chip :=
  match c.ctl.command with
  | some { tag := tag, phase := .loading left count formed } =>
    let n := c.path.serial
    let r := loadRun g off ds { left := left - 1, count := count } c
    let formed := formed ++ r.2.waitingSince n
    if r.1.left = 0 then
      replyAfter tag formed .none r.1.count (r.2.setMode .pass)
    else r.2.setCommand (some { tag := tag, phase := .loading r.1.left r.1.count formed })
  | _ => c

/-- LOAD taken. -/
def takeLoad (tag : Octet) (c : Chip) : Chip :=
  formLoads 6 26 94 ((c.setMode .loading).setCommand (some { tag := tag, phase := .loading 6 0 [] }))

/-! ### START, STOP, RESTART (R28 to R30) -/

/-- START's refusal. -/
def Chip.startRefusal (c : Chip) : Option Detail :=
  if !c.ctl.unitCommitted then some .noUnit
  else if c.ctl.coaxRing.isNone ∨ c.ctl.pairRing.isNone ∨ c.ctl.transmitRing.isNone then some .noRings
  else none

/-- START: RUN, the lines driven and sampled, the printers' claims and feeding (R28, R150, R168, R169), the
printers in ascending number (assumption 50). -/
def startWork (g : Give) (c : Chip) : Answer :=
  match c.startRefusal with
  | some d => (d, c)
  | none =>
    (.none, (List.range 8).foldl (fun c p => serve g p c) (sampleLines (redriveLines (c.setMode .run))))

/-- STOP: PASS, the held frames released, the awaiting commits taken, the lines at their PASS levels
(R29). -/
def stopWork (g : Give) (c : Chip) : Answer :=
  (.none, redriveLines (applyAwaitingAll g (stopFrames (c.setMode .pass))))

/-- One entry of the station table as RESTART leaves it (R65). -/
def restartStation (c : Chip) (n : Nat) : Chip :=
  let e := c.station n
  match e.kind with
  | .empty => emptyStation n c
  | .unit => c
  | .legacy =>
    if e.pinned then
      c.putStation n { e with
        age := 0, score := 0, quarantined := false, openJob := none, lastChange := c.stn.clock
        homeHearing := c.stn.clock
        presence := if e.trunk < c.ctl.unit.nt then .active else .unreachable }
    else emptyStation n c
  | .proxy =>
    if e.pinned then
      c.putStation n { e with age := 0, score := 0, quarantined := false, openJob := none }
    else emptyStation n c

/-- The trunks as RESTART leaves them (R126). -/
def restartTrunk (c : Chip) (t : Nat) : Chip :=
  c.putTrunk t (if t < c.ctl.unit.nt then Trunk.fresh else Trunk.absent)

/-- A printer as RESTART leaves it: READY when its record is in force and enabled (R30). -/
def restartPrinter (c : Chip) (p : Nat) : Chip :=
  c.putPrinter p { Printer.blank with state := if c.printerRegion p then .ready else .disabled }

/-- A timer as RESTART leaves it (R163). -/
def restartTimer (c : Chip) (k : Nat) : Chip :=
  c.putTimer k { c.timer k with running := false, count := 0 }

/-- RESTART: learned state cleared, configuration kept, no event recorded (R30). -/
def restartWork (c : Chip) : Answer :=
  let c := stationNumbers.foldl restartStation c
  let c := c.withStn { c.stn with exhausted := false }
  let c := (List.range 4).foldl restartTrunk c
  let c := c.withHlth { c.hlth with decayCount := 0, decayDue := false }
  let c := (List.range 8).foldl restartPrinter (c.withPrt PrintUnit.reset)
  (.none, redriveLines ((List.range 4).foldl restartTimer c))

/-! ### STATUS and INQUIRE (R31, R32) -/

/-- A number of one flag per index below `n`. -/
def flagBits (n : Nat) (f : Nat → Bool) : Nat := ((List.range n).map fun i => bitNat (f i) * 2 ^ i).sum

/-- How many of the indices a list holds pass a test. -/
def countIf (l : List Nat) (f : Nat → Bool) : Nat := (l.filter f).length

/-- Word 9 of the snapshot. -/
def statusPending (v : ControlUnit) : Nat :=
  bitNat v.pendingHealth.isSome + 2 * bitNat v.pendingPrint.isSome + 4 * bitNat v.pendingAging.isSome +
    8 * flagBits 8 (fun l => (tget none v.pendingLines l).isSome) +
    2048 * flagBits 4 (fun k => (tget none v.pendingTimers k).isSome) +
    32768 * bitNat v.awaitingHealth.isSome

/-- The snapshot, words 8–23 (R31). -/
def statusWords (c : Chip) : List Word :=
  let k := c.ctl
  let kindIs := fun (v : Kind) n => decide ((c.station n).kind = v)
  let trunk := fun t => (c.trunk t).state.code
  [octetPair k.mode.code (bitNat k.gateClosed),
    wordNat (statusPending k),
    octetPair (flagBits 8 fun p => (c.awaitingPrinter p).isSome)
      (flagBits 8 fun p => (tget none k.pendingPrinters p).isSome),
    wordNat (flagBits 16 fun r => (tget none k.pendingReactions r).isSome),
    octetPair (trunk 0) (trunk 1),
    octetPair (trunk 2) (trunk 3),
    wordNat (countIf stationNumbers (kindIs .legacy)),
    wordNat (countIf stationNumbers (kindIs .proxy)),
    wordNat (countIf (List.range Config.jobRecords) fun j => decide ((c.job j).state ≠ .free)),
    wordNat (countIf (List.range Config.spoolEntries) fun i => (c.spoolEntry i).isNone),
    wordNat c.path.queue.length,
    octetPair (lineBits fun l => decide (c.drive l ≠ .undriven)) (lineBits c.pinHigh),
    wordNat c.evt.overflow.toNat,
    octetPair c.frm.coaxHeld.length c.frm.pairHeld.length,
    wordNat c.cab.toNat,
    0]

/-- STATUS. -/
def statusWork (c : Chip) : Answer :=
  (.none, formDeposit .control .snapshot (c.base + 8) (statusWords c) c)

/-- The tables of INQUIRE by their kinds. -/
def inqKindOf : Nat → Option InqKind
  | 1 => some .stations
  | 2 => some .proxies
  | 3 => some .trunks
  | 4 => some .printers
  | 5 => some .jobs
  | 6 => some .timers
  | _ => none

/-- The lowest index of a table and the one past its highest. -/
def InqKind.span : InqKind → Nat × Nat
  | .stations => (1, 255)
  | .proxies => (0, 64)
  | .trunks => (0, 4)
  | .printers => (0, 8)
  | .jobs => (0, 32)
  | .timers => (0, 4)

/-- Inquiry records `first` on formed at `a`, `n` of them. -/
def formInquiries (k : InqKind) : Nat → Nat → Nat → Chip → Chip
  | 0, _, _, c => c
  | n + 1, first, a, c =>
    formInquiries k n (first + 1) (a + 4) (formEntry .control .inquiry (.inquiry k first a) c)

/-- INQUIRE: its detail, its count and its records. The place I of every record is that of the layout in force at
the taking, whatever unit record commit follows while one waits (assumption 62). -/
def inquireWork (c : Chip) : Detail × Nat × Chip :=
  match inqKindOf (c.arg 1).toNat with
  | none => (.badKind, 0, c)
  | some k =>
    let first := (c.arg 2).toNat
    if first < k.span.1 ∨ k.span.2 ≤ first then (.badIndex, 0, c)
    else
      let n := min (min (c.arg 3).toNat 16) (k.span.2 - first)
      (.none, n, formInquiries k n first (c.base + c.ctl.unit.inquiryWord) c)

/-- INQUIRE taken, with its reply. -/
def takeInquire (tag : Octet) (c : Chip) : Chip :=
  let r := inquireWork c
  reply tag c.path.serial r.1 r.2.1 r.2.2

/-! ### Station commands and their wait (R60 to R62, R77) -/

/-- A station command applied. -/
def applyStation (op : StationCommand) (a1 a2 a3 a4 : Word) (c : Chip) : Answer :=
  match op with
  | .set => applySetStation a1 a2 a3 a4 c
  | .clear => applyClearStation a1 c
  | .freeProxy => applyFreeProxy a1 c

/-- A station command taken: applied at once unless held frames refer to its entry (R62). -/
def takeStation (op : StationCommand) (tag : Octet) (c : Chip) : Chip :=
  let frames := c.framesFor .coax c.argLow ++ c.framesFor .pair c.argLow
  if frames.isEmpty then answered tag (applyStation op (c.arg 1) (c.arg 2) (c.arg 3) (c.arg 4)) c
  else
    c.setCommand (some
      { tag := tag, phase := .stationWait op (c.arg 1) (c.arg 2) (c.arg 3) (c.arg 4) frames })

/-- A waiting station command applied once every frame it waits for has left HELD_WAITING (R62). -/
def applyWaiting (c : Chip) : Chip :=
  match c.ctl.command with
  | some { tag := tag, phase := .stationWait op a1 a2 a3 a4 frames } =>
    if frames.any c.stillHeld then c else answered tag (applyStation op a1 a2 a3 a4) c
  | _ => c

/-! ### The other commands -/

/-- CANCEL_JOB (R139). -/
def cancelJob (g : Give) (j : Nat) (c : Chip) : Answer :=
  if 32 ≤ j ∨ (c.job j).state = .free ∨ (c.job j).reason.isSome then (.badIndex, c)
  else (.none, abandon g j .cancelled c)

/-- SET_LINE: the level in bit 0 of A2 (R170). -/
def setLineCommand (c : Chip) : Answer :=
  setLine c.argLow (if bitOf (c.arg 2) 0 then .high else .low) c

/-! ### Due steps (assumption 7) -/

/-- A trunk's countdown has come to its expiry in the state given. -/
def Chip.countdownDue (c : Chip) (st : TrunkState) (t : Nat) : Bool :=
  decide ((c.trunk t).state = st) && decide ((c.trunk t).countdown = some 0)

/-- Timer `k` has come to its expiry. -/
def Chip.timerDue (c : Chip) (k : Nat) : Bool := (c.timer k).running && decide ((c.timer k).count = 0)

/-- The second boundary, when it is due (R56). -/
def runSecond (g : Give) (c : Chip) : Chip := if c.stn.secondDue then secondBoundaryWork g c else c

/-- The decay tick, when it is due (R102). -/
def runDecay (g : Give) (c : Chip) : Chip := if c.hlth.decayDue then decayTickWork g c else c

/-- Trunk `t`'s hold expiry, when it is due (R117). -/
def runHold (g : Give) (c : Chip) (t : Nat) : Chip := if c.countdownDue .isolated t then holdExpiry g t c else c

/-- Trunk `t`'s trial expiry, when it is due (R118). -/
def runTrial (g : Give) (c : Chip) (t : Nat) : Chip := if c.countdownDue .trial t then trialExpiry g t c else c

/-- Trunk `t`'s clear countdown's expiry, when it is due (R119). -/
def runClear (c : Chip) (t : Nat) : Chip :=
  if (c.trunk t).clearCountdown = some 0 then clearExpiry t c else c

/-- Job `j`'s idle countdown's expiry, when it is due (R140). -/
def runIdle (g : Give) (c : Chip) (j : Nat) : Chip := if (c.job j).idle = some 0 then idleExpiry g j c else c

/-- Job `j`'s grace countdown's expiry, when it is due (R149). -/
def runGrace (g : Give) (c : Chip) (j : Nat) : Chip := if (c.job j).grace = some 0 then graceExpiry g j c else c

/-- Timer `k`'s expiry, when it is due (R164). -/
def runTimer (g : Give) (c : Chip) (k : Nat) : Chip := if c.timerDue k then timerExpiry g k c else c

/-- Every step still due from the last tick taken (assumption 7). -/
def takeDue (g : Give) (c : Chip) : Chip :=
  let c := runDecay g (runSecond g c)
  let c := (List.range 4).foldl (runHold g) c
  let c := (List.range 4).foldl (runTrial g) c
  let c := (List.range 4).foldl runClear c
  let c := (List.range Config.jobRecords).foldl (runIdle g) c
  let c := (List.range Config.jobRecords).foldl (runGrace g) c
  (List.range 4).foldl (runTimer g) c

/-! ### The taking of a command word (R26) -/

/-- The commands of the table in section 2.7. -/
inductive CommandCode where
  | load | start | stop | restart | status | inquire
  | setStation | clearStation | freeProxy | quarantine | releaseStation | isolateTrunk | releaseTrunk
  | cancelJob | holdPrinter | resumePrinter | startTimer | stopTimer | setLine
  deriving DecidableEq, Repr

/-- The code of each command. -/
def CommandCode.code : CommandCode → Nat
  | .load => 0x01
  | .start => 0x02
  | .stop => 0x03
  | .restart => 0x04
  | .status => 0x05
  | .inquire => 0x06
  | .setStation => 0x10
  | .clearStation => 0x11
  | .freeProxy => 0x12
  | .quarantine => 0x20
  | .releaseStation => 0x21
  | .isolateTrunk => 0x22
  | .releaseTrunk => 0x23
  | .cancelJob => 0x30
  | .holdPrinter => 0x31
  | .resumePrinter => 0x32
  | .startTimer => 0x40
  | .stopTimer => 0x41
  | .setLine => 0x42

/-- The command of a code, none when the code is not in the table. -/
def commandOf (n : Nat) : Option CommandCode :=
  [CommandCode.load, .start, .stop, .restart, .status, .inquire, .setStation, .clearStation, .freeProxy,
    .quarantine, .releaseStation, .isolateTrunk, .releaseTrunk, .cancelJob, .holdPrinter, .resumePrinter,
    .startTimer, .stopTimer, .setLine].find? fun k => decide (k.code = n)

/-- The modes in which a command is allowed (section 2.7). -/
def CommandCode.allowed (k : CommandCode) (m : Mode) : Bool :=
  match k with
  | .load => decide (m = .pass)
  | .start => decide (m = .pass)
  | .restart => decide (m = .pass)
  | .status => decide (m ≠ .loading)
  | .inquire => decide (m ≠ .loading)
  | .setStation => decide (m ≠ .loading)
  | .clearStation => decide (m ≠ .loading)
  | .freeProxy => decide (m ≠ .loading)
  | .stop => decide (m = .run)
  | .quarantine => decide (m = .run)
  | .releaseStation => decide (m = .run)
  | .isolateTrunk => decide (m = .run)
  | .releaseTrunk => decide (m = .run)
  | .cancelJob => decide (m = .run)
  | .holdPrinter => decide (m = .run)
  | .resumePrinter => decide (m = .run)
  | .startTimer => decide (m = .run)
  | .stopTimer => decide (m = .run)
  | .setLine => decide (m = .run)

/-- An allowed command performed, with its reply. -/
def performCommand (g : Give) (k : CommandCode) (tag : Octet) (c : Chip) : Chip :=
  match k with
  | .load => takeLoad tag c
  | .start => answered tag (startWork g) c
  | .stop => answered tag (stopWork g) (takeDue g c)
  | .restart => answered tag restartWork c
  | .status => answered tag statusWork c
  | .inquire => takeInquire tag c
  | .setStation => takeStation .set tag c
  | .clearStation => takeStation .clear tag c
  | .freeProxy => takeStation .freeProxy tag c
  | .quarantine => answered tag (quarantineCommand g c.argLow) c
  | .releaseStation => answered tag (releaseStationCommand c.argLow) c
  | .isolateTrunk => answered tag (isolateTrunk g .command c.argLow) c
  | .releaseTrunk => answered tag (releaseTrunk g .command c.argLow) c
  | .cancelJob => answered tag (cancelJob g c.argLow) c
  | .holdPrinter => answered tag (holdPrinter g .command c.argLow) c
  | .resumePrinter => answered tag (resumePrinter g .command c.argLow) c
  | .startTimer => answered tag (startTimer g c.argLow) c
  | .stopTimer => answered tag (stopTimer c.argLow) c
  | .setLine => answered tag setLineCommand c

/-- A command word taken, refused, or not taken because a command is in progress (R26). -/
def takeCommand (g : Give) (d : Word) (c : Chip) : Chip :=
  let tag := loOctet d
  if c.ctl.command.isSome then recordEvent (evCommandRefused (hiOctet d) tag) c
  else
    match commandOf (hiOctet d).toNat with
    | none => reply tag c.path.serial .unknownCommand 0 c
    | some k =>
      if k.allowed c.ctl.mode then performCommand g k tag c
      else reply tag c.path.serial .wrongMode 0 c

/-! ### Processor writes in the control area (R16) -/

/-- A processor full-word write of control-area word `off` taken by the control unit. -/
def controlWrite (g : Give) (off : Nat) (d : Word) (c : Chip) : Chip :=
  if off = 0 then takeCommand g d c
  else if off ≤ 4 then c.stage off d
  else if off = 25 then consumerWrite d c
  else if off = 26 then gateWrite g d c
  else if off = 27 then noticeMaskWrite d c
  else if off = 28 then recordMaskWrite d c
  else
    match recordAt c.ctl.unit off with
    | some (id, i) => recordWrite g id i d c
    | none => c

end Sys2Proof.Machine
end

