-- ==== Sys2Proof/Machine/Path.lean ====
section
/-! DEFINITION. The path unit: private cycles (R9), strikes (R10), accesses and what they are shown to (R3 to
R6), the WAIT stretch (R12 to R14), ticks, and pin reset (R15). Only here does the part meet memory. -/

namespace Sys2Proof.Machine

/-- The machine with another part. -/
def State.withChip (v : Chip) (s : State) : State := { s with chip := v }

/-- The machine with another memory. -/
def State.withMem (v : List Host.Cell) (s : State) : State := { s with mem := v }

/-- The machine with another word on D15–D0. -/
def State.withData (v : Word) (s : State) : State := { s with dataOut := v }

/-- A change of the part alone. -/
def State.onChip (f : Chip → Chip) (s : State) : State := s.withChip (f s.chip)

/-! ### Private cycles (R9) -/

/-- What a unit does when a deposit of its own has been performed: a held slot frees (R45), the command in
progress ends (R26), records are written (R176). -/
def depositDone (p : Purpose) (c : Chip) : Chip :=
  match p with
  | .statusWord e _ id => dropSlot e id c
  | .reply _ => c.setCommand none
  | .producer v classes => recordsWritten v classes c
  | _ => c

/-- What a unit does with the data of a fetch of its own (R27, R43, R131). -/
def fetchDone (p : Purpose) (ws : List Word) (c : Chip) : Chip :=
  match p with
  | .loadFetch off => loadFetched top off ws c
  | _ => frameFetched p ws c

/-- The oldest entry out of the queue, its place free; a stretched access owes one private cycle less (R12, R13). -/
def dropOldest (c : Chip) : Chip :=
  c.withPath { c.path with
    queue := c.path.queue.drop 1
    bus := c.path.bus.map fun b => { b with owed := b.owed - 1 } }

/-- One private cycle: the oldest entry performed to its end and taken from the queue (R9). The entry leaves, and
its place frees, before its unit acts on the data (assumption 60). -/
def privateCycle (s : State) : State :=
  match s.chip.path.queue with
  | [] => s
  | e :: _ =>
    match e.work with
    | .deposit a ws =>
      (s.withMem (writeRun s.mem a ws ws.length)).onChip fun c => depositDone e.purpose (dropOldest c)
    | .fetch a n => s.onChip fun c => fetchDone e.purpose (readRun s.mem a n) (dropOldest c)
    | .inquiry _ _ _ => s.onChip dropOldest

/-! ### Strikes (R10) -/

/-- What a unit does when a deposit of its own is withdrawn because it was struck whole: the command in
progress ends (R26), records count as written (R176). -/
def depositStruck (c : Chip) (e : Entry) : Chip :=
  match e.purpose with
  | .reply _ => c.setCommand none
  | .producer v classes => recordsWritten v classes c
  | _ => c

/-- A write at word address `a` strikes the queued deposits' words there; a deposit struck whole leaves the
queue (R10). -/
def strikeAt (a : Nat) (c : Chip) : Chip :=
  let q := c.path.queue.map (strikeEntry a)
  (q.filter Entry.allStruck).foldl depositStruck
    (c.withPath { c.path with queue := q.filter fun e => !e.allStruck })

/-! ### An access that reaches memory (R3 to R6) -/

/-- What the frame unit does with a write before it reaches memory: cancellations (R46, R47), then capture
(R38). -/
def frameShown (x : Access) (c : Chip) : Chip :=
  let c := cancelAt x.region x.addr c
  match masterEngine x.master with
  | some e => captureWrite e x.region x.addr x.be x.data c
  | none => c

/-- The data a write places in memory (R6): a completion taken in RUN has owner HELD_BY_PART (2), a
hand-over write is guarded, every other is as the master made it. -/
def rewritten (c : Chip) (x : Access) : Word :=
  if c.ctl.mode = .run ∧ x.completion.isSome then withOwner x.data 2
  else if c.guards x then c.guard x.data
  else x.data

/-- The control unit's work on a write in the control area (R5, R16, R18). -/
def controlShown (x : Access) (off : Nat) (c : Chip) : Chip :=
  if x.master ≠ .processor then recordEvent (evStrayWrite x.master off) c
  else if fullWord x.be then controlWrite top off x.data c
  else if takesWrites c.ctl.unit off then recordEvent (evByteWriteIgnored off) c
  else c

/-- The frame unit's work on a completion (R39). -/
def completionShown (x : Access) (c : Chip) : Chip :=
  match x.completion with
  | none => c
  | some (e, i) =>
    if c.ctl.mode = .run then takeCompletion e i x.addr x.data c else dropContext e i c

/-- What the units do with a write once its place in memory is settled (R3). -/
def unitsShown (x : Access) (c : Chip) : Chip :=
  match x.region with
  | .control off => controlShown x off c
  | .receive _ _ => completionShown x c
  | .transmit _ => if c.guards x then guardRecord x c else c
  | .printer p off => printerRingWrite top x.master (fullWord x.be) p off x.data c
  | .plain => c

/-- A write that reaches memory: shown, placed, striking, and taken by the units, in that order (assumption
12). One with no byte enable changes nothing (R4, assumption 35). -/
def writeAccess (x : Access) (s : State) : State :=
  if noOctet x.be then s
  else
    let c := frameShown x s.chip
    (s.withMem (writeMasked s.mem x.addr x.be (rewritten c x))).withChip
      (unitsShown x (strikeAt x.addr c))

/-- What the frame unit takes from a read that returned `d` (R37). -/
def readShown (x : Access) (d : Word) (c : Chip) : Chip :=
  match x.region, masterEngine x.master with
  | .receive e off, some m => if m = e then readPart e (off / 8) (off % 8) d c else c
  | _, _ => c

/-- A read that reaches memory: it returns the whole word (R4). -/
def readAccess (x : Access) (s : State) : State :=
  let d := readWord s.mem x.addr
  (s.withData d).onChip (readShown x d)

/-- An access that reaches memory. -/
def performAccess (x : Access) (s : State) : State := if x.write then writeAccess x s else readAccess x s

/-! ### The stretch (R12 to R14) -/

/-- The private cycles an access waits for when it is ready: up to the last queued deposit of the word it
reads (R13), and one when the queue is full (R12). -/
def Chip.owedTo (c : Chip) (x : Access) : Nat :=
  max (if x.write then 0 else lastHolding x.addr c.path.queue) (if c.hasPlace then 0 else 1)

/-- A completion that finds all four slots in use, after its own cancellation (R14). -/
def Chip.noSlotFor (c : Chip) (x : Access) : Bool :=
  match x.completion with
  | some (e, _) =>
    decide (c.ctl.mode = .run) &&
      decide (Config.heldLimit ≤ ((c.held e).filter fun v => !inRun v.word0 8 x.addr).length)
  | none => false

/-- A stretched access that waits for nothing more. -/
def Chip.stretchOver (c : Chip) (b : Stretch) : Bool :=
  (decide (b.owed = 0) || c.path.queue.isEmpty) && !c.noSlotFor b.access

/-- An access classed as its strobe is asserted (R2). -/
def classed (c : Chip) (m : Master) (write : Bool) (a : BusAddr) (be : BitVec 2) (d : Word) : Access :=
  { master := m, write := write, addr := a.toNat, be := be, data := d, region := c.classify a.toNat }

/-- The access of some pins, classed by part `c`. -/
def Pins.access (p : Pins) (c : Chip) : Access := classed c p.master p.write p.addr p.be p.data

/-- An access begun on a free bus: it reaches memory at once, or WAIT holds it. -/
def beginAccess (x : Access) (s : State) : State :=
  let owed := s.chip.owedTo x
  if owed = 0 ∧ !s.chip.noSlotFor x then performAccess x s
  else s.onChip fun c => c.withPath { c.path with bus := some { access := x, owed := owed } }

/-- Accesses asked for, granted the bus in turn: each begins when the one before it has ended, and what WAIT
keeps from beginning stays asked for (R14, assumption 3). -/
def grantAsked : List Pins → State → State
  | [], s => s
  | p :: l, s =>
    match s.chip.path.bus with
    | none => grantAsked l (beginAccess (p.access s.chip) s)
    | some _ => s.onChip fun c => c.withPath { c.path with asking := p :: l }

/-- The stretched access reaches memory, when it waits for nothing more, and those asked for meanwhile are
granted the bus (R12 to R14). Cancellation and capture are shown the access here, as it reaches memory, and
not at its strobe (assumption 46). -/
def endStretch (s : State) : State :=
  match s.chip.path.bus with
  | none => s
  | some b =>
    if s.chip.stretchOver b then
      grantAsked s.chip.path.asking
        (performAccess b.access (s.onChip fun c => c.withPath { c.path with bus := none, asking := [] }))
    else s

/-- Engine `e`'s frame at evaluation is ready for stage two. -/
def Chip.stageDue (c : Chip) (e : Engine) : Bool :=
  decide (c.ctl.mode = .run) &&
    match c.atEvaluation e with
    | some v => v.ready c.ctl.unit e
    | none => false

/-- One step of the part's own work during a stretch, none when it has nothing to do (assumption 3). -/
def ownMove (s : State) : Option State :=
  if s.chip.placeDue then some (s.onChip givePlace)
  else if !s.chip.path.queue.isEmpty then some (privateCycle s)
  else if s.chip.stageDue .coax then some (s.onChip (stageTwo .coax))
  else if s.chip.stageDue .pair then some (s.onChip (stageTwo .pair))
  else none

/-- The stretched accesses brought to their ends by the part's own work, as far as that work goes, before
another access (assumption 3). -/
def settle : Nat → State → State
  | 0, s => s
  | n + 1, s =>
    match s.chip.path.bus with
    | none => s
    | some b =>
      if s.chip.stretchOver b then settle n (endStretch s)
      else
        match ownMove s with
        | some t => settle n t
        | none => s

/-- An access asked for: it begins on a free bus, and waits for the bus while WAIT holds another (R14). -/
def askAccess (p : Pins) (s : State) : State :=
  match s.chip.path.bus with
  | none => beginAccess (p.access s.chip) s
  | some _ => s.onChip fun c => c.withPath { c.path with asking := c.path.asking ++ [p] }

/-- An access while RESET is asserted: carried to memory unaltered and shown to no unit (R15). -/
def rawAccess (write : Bool) (a : Nat) (be : BitVec 2) (d : Word) (s : State) : State :=
  if write then s.withMem (writeMasked s.mem a be d) else s.withData (readWord s.mem a)

/-- An access presented by a master. -/
def present (m : Master) (write : Bool) (a : BusAddr) (be : BitVec 2) (d : Word) (s : State) :
    Host.Outcome State Fault Refusal :=
  if s.chip.resetAsserted then .next (rawAccess write a.toNat be d s)
  else
    .next (askAccess { master := m, write := write, addr := a, be := be, data := d }
      (settle Config.stretchFuel s))

/-- The address of the control-area word `o`. -/
def Chip.controlAddr (c : Chip) (o : Nat) : BusAddr := BitVec.ofNat 20 (c.base + o)

/-- A processor full-word write of the control-area word `o`. -/
def processorWrite (o : Nat) (d : Word) (s : State) : Host.Outcome State Fault Refusal :=
  present .processor true (s.chip.controlAddr o) 3 d s

/-- A processor full-word write of the last word of a record, by the layout in force. -/
def commitWrite (id : RecordId) (d : Word) (s : State) : Host.Outcome State Fault Refusal :=
  processorWrite (recordFirst s.chip.ctl.unit id + recordLength id - 1) d s

/-- A processor write of the command word. -/
def commandWrite (code : Nat) (tag : Octet) (s : State) : Host.Outcome State Fault Refusal :=
  processorWrite 0 (octetPair code tag.toNat) s

/-- The levels the unit holds the general lines at. -/
def State.setPins (pins : Octet) (s : State) : State := s.onChip (Chip.withPins pins)

/-! ### Ticks (R49, R102, R115, R140, R149, R164, R169) -/

/-- A countdown lowered by one tick; one that comes to 0 is at its expiry. -/
def lowered (n : Option Nat) : Option Nat := n.map (· - 1)

/-- Trunk `t`'s countdowns lowered (R115). -/
def tickTrunk (c : Chip) (t : Nat) : Chip :=
  let r := c.trunk t
  c.putTrunk t { r with countdown := lowered r.countdown, clearCountdown := lowered r.clearCountdown }

/-- Job `j`'s countdowns lowered (R140, R149). -/
def tickJob (c : Chip) (j : Nat) : Chip :=
  let v := c.job j
  c.putJob j { v with idle := lowered v.idle, grace := lowered v.grace }

/-- Timer `k`'s count lowered while it is RUNNING (R164). -/
def tickTimer (c : Chip) (k : Nat) : Chip :=
  let v := c.timer k
  if v.running then c.putTimer k { v with count := v.count - 1 } else c

/-- The station clock advanced; a multiple of 100 is a second boundary (R49, R56). -/
def tickClock (c : Chip) : Chip :=
  c.withStn { c.stn with
    clock := c.stn.clock + 1
    secondDue := decide ((c.stn.clock + 1).toNat % 100 = 0) }

/-- The decay count advanced; at or above the decay interval the tick is a decay tick (R102). -/
def tickDecay (c : Chip) : Chip :=
  let n := satAdd 65535 c.hlth.decayCount 1
  c.withHlth { c.hlth with decayCount := n, decayDue := decide (c.ctl.health.decayInterval ≤ n) }

/-- One tick in RUN: the steps still due, the clock and counts, then the lines (assumption 7). The edges of
different lines, which R169 leaves without an order, are taken with their reactions in ascending line number
(assumption 59). -/
def runTick (g : Give) (pins : Octet) (c : Chip) : Chip :=
  let c := tickDecay (tickClock ((takeDue g c).withPins pins))
  let c := (List.range 4).foldl tickTrunk c
  let c := (List.range Config.jobRecords).foldl tickJob c
  let c := (List.range 4).foldl tickTimer c
  (List.range 8).foldl (sampleLine g) c

/-- A tick: in PASS and LOADING it changes nothing (R25). -/
def tickWork (g : Give) (pins : Octet) (c : Chip) : Chip :=
  if c.ctl.mode = .run then runTick g pins c else c.withPins pins

/-! ### Pin reset (R15) -/

/-- A private cycle broken off by the fall of RESET: of a deposit's words, a free number has reached memory
(assumption 9). -/
def breakCycle (s : State) : State :=
  match s.chip.path.queue with
  | [] => s
  | e :: _ =>
    match e.work with
    | .deposit a ws =>
      { s with
        mem := writeRun s.mem a ws (Config.brokenWords s.freeCount)
        freeCount := s.freeCount + 1 }
    | _ => s

/-- A stretched access released by the fall of RESET: it reaches memory as the master made it (R15), and
those asked for after it, which then meet a part in reset, do so in turn (assumption 3). -/
def releaseBus (s : State) : State :=
  match s.chip.path.bus with
  | none => s
  | some b =>
    s.chip.path.asking.foldl (fun s p => rawAccess p.write p.addr.toNat p.be p.data s)
      (rawAccess b.access.write b.access.addr b.access.be b.access.data s)

/-- The part while RESET is asserted: every unit at its values after pin reset; the sampled strap value and
the pins' levels are not the units'. -/
def Chip.inReset (c : Chip) : Chip := { Chip.reset with resetAsserted := true, cab := c.cab, pins := c.pins }

/-- RESET falls (R15, R24). -/
def resetFall (inCycle : Bool) (s : State) : State :=
  (releaseBus (if inCycle then breakCycle s else s)).onChip Chip.inReset

/-- RESET is released: the straps are sampled (R1, R15). -/
def resetRise (cab : BitVec 7) (c : Chip) : Chip :=
  if c.resetAsserted then { c with resetAsserted := false, cab := cab } else c

end Sys2Proof.Machine
end

