-- ==== Sys2Proof/Machine/Access.lean ====
section
/-! DEFINITION. The meanings of the accesses named by a word address. The part knows an access by its
pins, so each does what its master, address, byte enables and data make of it (assumption 2). -/

namespace Sys2Proof.Machine

/-- MASTER_READ (R4, R13). -/
def execMasterRead (m : Master) (a : BusAddr) (be : BitVec 2) (s : State) :
    Host.Outcome State Fault Refusal := present m false a be 0 s

/-- DESCRIPTOR_READ: a receive engine's read, of word 1 or 2 of its own descriptor (R37). -/
def execDescriptorRead (e : Engine) (a : BusAddr) (be : BitVec 2) (s : State) :
    Host.Outcome State Fault Refusal := present (engineMaster e) false a be 0 s

/-- MASTER_WRITE (R4, R10). -/
def execMasterWrite (m : Master) (a : BusAddr) (be : BitVec 2) (d : Word) (s : State) :
    Host.Outcome State Fault Refusal := present m true a be d s

/-- HEADER_CAPTURE: a receive engine's buffer write (R38). -/
def execHeaderCapture (e : Engine) (a : BusAddr) (be : BitVec 2) (d : Word) (s : State) :
    Host.Outcome State Fault Refusal := present (engineMaster e) true a be d s

/-- RECEIVE_COMPLETION: a receive engine's full-word write of a status word (R39). -/
def execReceiveCompletion (e : Engine) (a : BusAddr) (d : Word) (s : State) :
    Host.Outcome State Fault Refusal := present (engineMaster e) true a 3 d s

/-- CANCELLING_WRITE_HELD: a write in a descriptor held in HELD_WAITING (R46). -/
def execCancellingWriteHeld (m : Master) (a : BusAddr) (be : BitVec 2) (d : Word) (s : State) :
    Host.Outcome State Fault Refusal := present m true a be d s

/-- CANCELLING_WRITE_RELEASING: a write in a descriptor in RELEASING (R47). -/
def execCancellingWriteReleasing (m : Master) (a : BusAddr) (be : BitVec 2) (d : Word) (s : State) :
    Host.Outcome State Fault Refusal := present m true a be d s

/-- TRANSMIT_GUARD: a processor full-word write of a transmit status word (R93, R94). -/
def execTransmitGuard (a : BusAddr) (d : Word) (s : State) : Host.Outcome State Fault Refusal :=
  present .processor true a 3 d s

/-- PRINTER_COMPLETION: a print engine full-word write of a printer status word (R146). -/
def execPrinterCompletion (a : BusAddr) (d : Word) (s : State) : Host.Outcome State Fault Refusal :=
  present .printEngine true a 3 d s

/-- PRINTED_COUNT_WRITE: a print engine full-word write of a printed count (R144). -/
def execPrintedCountWrite (a : BusAddr) (d : Word) (s : State) : Host.Outcome State Fault Refusal :=
  present .printEngine true a 3 d s

end Sys2Proof.Machine
end

