-- ==== Sys2Proof/Machine/Command.lean ====
section
/-! DEFINITION. The meanings of the command words: processor full-word writes of word 0 (R26). -/

namespace Sys2Proof.Machine

/-- LOAD (R27). -/
def execLoad (tag : Octet) (s : State) : Host.Outcome State Fault Refusal := commandWrite 0x01 tag s

/-- START (R28). -/
def execStart (tag : Octet) (pins : Octet) (s : State) : Host.Outcome State Fault Refusal :=
  commandWrite 0x02 tag (s.setPins pins)

/-- STOP (R29). -/
def execStop (tag : Octet) (s : State) : Host.Outcome State Fault Refusal := commandWrite 0x03 tag s

/-- RESTART (R30). -/
def execRestart (tag : Octet) (s : State) : Host.Outcome State Fault Refusal := commandWrite 0x04 tag s

/-- STATUS (R31). -/
def execStatus (tag : Octet) (pins : Octet) (s : State) : Host.Outcome State Fault Refusal :=
  commandWrite 0x05 tag (s.setPins pins)

/-- INQUIRE (R32). -/
def execInquire (tag : Octet) (s : State) : Host.Outcome State Fault Refusal := commandWrite 0x06 tag s

/-- SET_STATION (R60). -/
def execSetStation (tag : Octet) (s : State) : Host.Outcome State Fault Refusal :=
  commandWrite 0x10 tag s

/-- CLEAR_STATION (R61). -/
def execClearStation (tag : Octet) (s : State) : Host.Outcome State Fault Refusal :=
  commandWrite 0x11 tag s

/-- FREE_PROXY (R77). -/
def execFreeProxy (tag : Octet) (s : State) : Host.Outcome State Fault Refusal := commandWrite 0x12 tag s

/-- QUARANTINE (R129). -/
def execQuarantine (tag : Octet) (s : State) : Host.Outcome State Fault Refusal :=
  commandWrite 0x20 tag s

/-- RELEASE_STATION (R130). -/
def execReleaseStation (tag : Octet) (s : State) : Host.Outcome State Fault Refusal :=
  commandWrite 0x21 tag s

/-- ISOLATE_TRUNK (R120). -/
def execIsolateTrunk (tag : Octet) (s : State) : Host.Outcome State Fault Refusal :=
  commandWrite 0x22 tag s

/-- RELEASE_TRUNK (R121). -/
def execReleaseTrunk (tag : Octet) (s : State) : Host.Outcome State Fault Refusal :=
  commandWrite 0x23 tag s

/-- CANCEL_JOB (R139). -/
def execCancelJob (tag : Octet) (s : State) : Host.Outcome State Fault Refusal := commandWrite 0x30 tag s

/-- HOLD_PRINTER (R157). -/
def execHoldPrinter (tag : Octet) (s : State) : Host.Outcome State Fault Refusal :=
  commandWrite 0x31 tag s

/-- RESUME_PRINTER (R158). -/
def execResumePrinter (tag : Octet) (s : State) : Host.Outcome State Fault Refusal :=
  commandWrite 0x32 tag s

/-- START_TIMER (R165). -/
def execStartTimer (tag : Octet) (s : State) : Host.Outcome State Fault Refusal :=
  commandWrite 0x40 tag s

/-- STOP_TIMER (R165). -/
def execStopTimer (tag : Octet) (s : State) : Host.Outcome State Fault Refusal := commandWrite 0x41 tag s

/-- SET_LINE (R170). -/
def execSetLine (tag : Octet) (s : State) : Host.Outcome State Fault Refusal := commandWrite 0x42 tag s

/-- UNKNOWN_COMMAND: a code not in the table (R26). -/
def execUnknownCommand (code : Octet) (tag : Octet) (s : State) : Host.Outcome State Fault Refusal :=
  commandWrite code.toNat tag s

/-- COMMAND_REFUSED: a command word written while a command is in progress (R26). -/
def execCommandRefused (code : Octet) (tag : Octet) (s : State) : Host.Outcome State Fault Refusal :=
  commandWrite code.toNat tag s

end Sys2Proof.Machine
end

