-- ==== Sys2Proof/Machine/Configure.lean ====
section
/-! DEFINITION. The meanings of the writes in the control area: staging and commits (R18 to R23), the
gate (R22), the masks (R16) and the consumer index (R177), and the writes that are not taken (R5, R18).
-/

namespace Sys2Proof.Machine

/-- BYTE_WRITE: a processor byte write in the control area (R5). -/
def execByteWrite (o : BitVec 13) (high : Bool) (d : Word) (s : State) :
    Host.Outcome State Fault Refusal :=
  present .processor true (s.chip.controlAddr o.toNat) (if high then 2 else 1) d s

/-- STRAY_WRITE: an engine's write in the control area (R18). -/
def execStrayWrite (m : Master) (o : BitVec 13) (be : BitVec 2) (d : Word) (s : State) :
    Host.Outcome State Fault Refusal := present m true (s.chip.controlAddr o.toNat) be d s

/-- STAGING_WRITE: a processor full-word write in the control area (R16, R18). -/
def execStagingWrite (o : BitVec 13) (d : Word) (s : State) : Host.Outcome State Fault Refusal :=
  processorWrite o.toNat d s

/-- UNIT_RECORD_COMMIT (R20, R23). -/
def execUnitRecordCommit (d : Word) (s : State) : Host.Outcome State Fault Refusal :=
  commitWrite .unit d s

/-- RING_RECORD_COMMIT (R20). -/
def execRingRecordCommit (k : Nat) (d : Word) (s : State) : Host.Outcome State Fault Refusal :=
  commitWrite (.ring k) d s

/-- HEALTH_RECORD_COMMIT (R111, R112). -/
def execHealthRecordCommit (d : Word) (s : State) : Host.Outcome State Fault Refusal :=
  commitWrite .health d s

/-- PRINT_RECORD_COMMIT (R134). -/
def execPrintRecordCommit (d : Word) (s : State) : Host.Outcome State Fault Refusal :=
  commitWrite .print d s

/-- AGING_RECORD_COMMIT (R51). -/
def execAgingRecordCommit (d : Word) (s : State) : Host.Outcome State Fault Refusal :=
  commitWrite .aging d s

/-- LINE_RECORD_COMMIT (R167). -/
def execLineRecordCommit (l : Nat) (d : Word) (pins : Octet) (s : State) :
    Host.Outcome State Fault Refusal := commitWrite (.line l) d (s.setPins pins)

/-- TIMER_RECORD_COMMIT (R163). -/
def execTimerRecordCommit (k : Nat) (d : Word) (s : State) : Host.Outcome State Fault Refusal :=
  commitWrite (.timer k) d s

/-- PRINTER_RECORD_COMMIT (R153, R154). -/
def execPrinterRecordCommit (p : Nat) (d : Word) (s : State) : Host.Outcome State Fault Refusal :=
  commitWrite (.printer p) d s

/-- REACTION_RECORD_COMMIT (R171). -/
def execReactionRecordCommit (r : Nat) (d : Word) (s : State) : Host.Outcome State Fault Refusal :=
  commitWrite (.reaction r) d s

/-- UPDATE_GATE (R16, R22). -/
def execUpdateGate (d : Word) (pins : Octet) (s : State) : Host.Outcome State Fault Refusal :=
  processorWrite 26 d (s.setPins pins)

/-- NOTICE_MASK (R16, R179). -/
def execNoticeMask (d : Word) (s : State) : Host.Outcome State Fault Refusal := processorWrite 27 d s

/-- RECORD_MASK (R16). -/
def execRecordMask (d : Word) (s : State) : Host.Outcome State Fault Refusal := processorWrite 28 d s

/-- EVENT_CONSUMER_INDEX (R177). -/
def execEventConsumerIndex (d : Word) (s : State) : Host.Outcome State Fault Refusal :=
  processorWrite 25 d s

end Sys2Proof.Machine
end

