-- ==== Sys2Proof/Machine/Internal.lean ====
section
/-! DEFINITION. The meanings of the part's own steps. -/

namespace Sys2Proof.Machine

/-- APPLY_STATION_COMMAND (R62). -/
def execApplyStationCommand (s : State) : Host.Outcome State Fault Refusal :=
  .next (s.onChip applyWaiting)

/-- PRIVATE_CYCLE (R9). -/
def execPrivateCycle (pins : Octet) (s : State) : Host.Outcome State Fault Refusal :=
  .next (privateCycle (s.setPins pins))

/-- QUEUE_PLACE_GIVEN (R8). -/
def execQueuePlaceGiven (s : State) : Host.Outcome State Fault Refusal := .next (s.onChip givePlace)

/-- STRETCH_END (R12 to R14). -/
def execStretchEnd (pins : Octet) (s : State) : Host.Outcome State Fault Refusal :=
  .next (endStretch (s.setPins pins))

/-- STAGE_TWO (R42 to R45). -/
def execStageTwo (e : Engine) (s : State) : Host.Outcome State Fault Refusal :=
  .next (s.onChip (stageTwo e))

end Sys2Proof.Machine
end

