-- ==== Sys2Proof/Machine/Reset.lean ====
section
/-! DEFINITION. The meanings of pin reset (R15, R24). -/

namespace Sys2Proof.Machine

/-- PIN_RESET: RESET falls (R15). -/
def execPinReset (inCycle : Bool) (s : State) : Host.Outcome State Fault Refusal :=
  .next (resetFall inCycle s)

/-- RESET_RELEASE: the straps are sampled (R1, R15). -/
def execResetRelease (cab : BitVec 7) (s : State) : Host.Outcome State Fault Refusal :=
  .next (s.onChip (resetRise cab))

end Sys2Proof.Machine
end

