-- ==== Sys2Proof/Machine/Time.lean ====
section
/-! DEFINITION. The meanings of the tick and what it makes due. A step that is not due changes nothing
(assumption 7). -/

namespace Sys2Proof.Machine

/-- TICK (R49, R102, R115, R140, R149, R164, R169). -/
def execTick (pins : Octet) (s : State) : Host.Outcome State Fault Refusal :=
  .next (s.onChip (tickWork top pins))

/-- SECOND_BOUNDARY (R56, R57, R74). -/
def execSecondBoundary (s : State) : Host.Outcome State Fault Refusal := .next (s.onChip (runSecond top))

/-- DECAY_TICK (R102 to R104). -/
def execDecayTick (s : State) : Host.Outcome State Fault Refusal := .next (s.onChip (runDecay top))

/-- HOLD_EXPIRY (R117). -/
def execHoldExpiry (t : Nat) (s : State) : Host.Outcome State Fault Refusal :=
  .next (s.onChip fun c => runHold top c t)

/-- TRIAL_EXPIRY (R118). -/
def execTrialExpiry (t : Nat) (s : State) : Host.Outcome State Fault Refusal :=
  .next (s.onChip fun c => runTrial top c t)

/-- CLEAR_COUNTDOWN_EXPIRY (R119). -/
def execClearCountdownExpiry (t : Nat) (s : State) : Host.Outcome State Fault Refusal :=
  .next (s.onChip fun c => runClear c t)

/-- IDLE_COUNTDOWN_EXPIRY (R140). -/
def execIdleCountdownExpiry (j : Nat) (s : State) : Host.Outcome State Fault Refusal :=
  .next (s.onChip fun c => runIdle top c j)

/-- GRACE_COUNTDOWN_EXPIRY (R149). -/
def execGraceCountdownExpiry (j : Nat) (s : State) : Host.Outcome State Fault Refusal :=
  .next (s.onChip fun c => runGrace top c j)

/-- TIMER_EXPIRY (R164). -/
def execTimerExpiry (k : Nat) (s : State) : Host.Outcome State Fault Refusal :=
  .next (s.onChip fun c => runTimer top c k)

end Sys2Proof.Machine
end

