-- ==== Sys2Proof/Machine/Dispatch.lean ====
section
/-! DEFINITION. The meaning of each command, one arm a row of spec/opcode_table.json, in its order. -/

namespace Sys2Proof.Machine

def exec (i : Instr) (s : State) : Host.Outcome State Fault Refusal :=
  match i with
  | .pinReset inCycle => Sys2Proof.Machine.execPinReset inCycle s
  | .resetRelease cab => Sys2Proof.Machine.execResetRelease cab s
  | .tick pins => Sys2Proof.Machine.execTick pins s
  | .secondBoundary => Sys2Proof.Machine.execSecondBoundary s
  | .decayTick => Sys2Proof.Machine.execDecayTick s
  | .holdExpiry trunk => Sys2Proof.Machine.execHoldExpiry trunk s
  | .trialExpiry trunk => Sys2Proof.Machine.execTrialExpiry trunk s
  | .clearCountdownExpiry trunk => Sys2Proof.Machine.execClearCountdownExpiry trunk s
  | .idleCountdownExpiry job => Sys2Proof.Machine.execIdleCountdownExpiry job s
  | .graceCountdownExpiry job => Sys2Proof.Machine.execGraceCountdownExpiry job s
  | .timerExpiry timer => Sys2Proof.Machine.execTimerExpiry timer s
  | .masterRead m a be => Sys2Proof.Machine.execMasterRead m a be s
  | .descriptorRead e a be => Sys2Proof.Machine.execDescriptorRead e a be s
  | .masterWrite m a be d => Sys2Proof.Machine.execMasterWrite m a be d s
  | .byteWrite o high d => Sys2Proof.Machine.execByteWrite o high d s
  | .strayWrite m o be d => Sys2Proof.Machine.execStrayWrite m o be d s
  | .headerCapture e a be d => Sys2Proof.Machine.execHeaderCapture e a be d s
  | .receiveCompletion e a d => Sys2Proof.Machine.execReceiveCompletion e a d s
  | .cancellingWriteHeld m a be d => Sys2Proof.Machine.execCancellingWriteHeld m a be d s
  | .cancellingWriteReleasing m a be d => Sys2Proof.Machine.execCancellingWriteReleasing m a be d s
  | .transmitGuard a d => Sys2Proof.Machine.execTransmitGuard a d s
  | .printerCompletion a d => Sys2Proof.Machine.execPrinterCompletion a d s
  | .printedCountWrite a d => Sys2Proof.Machine.execPrintedCountWrite a d s
  | .stagingWrite o d => Sys2Proof.Machine.execStagingWrite o d s
  | .unitRecordCommit d => Sys2Proof.Machine.execUnitRecordCommit d s
  | .ringRecordCommit ring d => Sys2Proof.Machine.execRingRecordCommit ring d s
  | .healthRecordCommit d => Sys2Proof.Machine.execHealthRecordCommit d s
  | .printRecordCommit d => Sys2Proof.Machine.execPrintRecordCommit d s
  | .agingRecordCommit d => Sys2Proof.Machine.execAgingRecordCommit d s
  | .lineRecordCommit line d pins => Sys2Proof.Machine.execLineRecordCommit line d pins s
  | .timerRecordCommit timer d => Sys2Proof.Machine.execTimerRecordCommit timer d s
  | .printerRecordCommit printer d => Sys2Proof.Machine.execPrinterRecordCommit printer d s
  | .reactionRecordCommit reaction d => Sys2Proof.Machine.execReactionRecordCommit reaction d s
  | .updateGate d pins => Sys2Proof.Machine.execUpdateGate d pins s
  | .noticeMask d => Sys2Proof.Machine.execNoticeMask d s
  | .recordMask d => Sys2Proof.Machine.execRecordMask d s
  | .eventConsumerIndex d => Sys2Proof.Machine.execEventConsumerIndex d s
  | .load tag => Sys2Proof.Machine.execLoad tag s
  | .start tag pins => Sys2Proof.Machine.execStart tag pins s
  | .stop tag => Sys2Proof.Machine.execStop tag s
  | .restart tag => Sys2Proof.Machine.execRestart tag s
  | .status tag pins => Sys2Proof.Machine.execStatus tag pins s
  | .inquire tag => Sys2Proof.Machine.execInquire tag s
  | .setStation tag => Sys2Proof.Machine.execSetStation tag s
  | .clearStation tag => Sys2Proof.Machine.execClearStation tag s
  | .freeProxy tag => Sys2Proof.Machine.execFreeProxy tag s
  | .quarantine tag => Sys2Proof.Machine.execQuarantine tag s
  | .releaseStation tag => Sys2Proof.Machine.execReleaseStation tag s
  | .isolateTrunk tag => Sys2Proof.Machine.execIsolateTrunk tag s
  | .releaseTrunk tag => Sys2Proof.Machine.execReleaseTrunk tag s
  | .cancelJob tag => Sys2Proof.Machine.execCancelJob tag s
  | .holdPrinter tag => Sys2Proof.Machine.execHoldPrinter tag s
  | .resumePrinter tag => Sys2Proof.Machine.execResumePrinter tag s
  | .startTimer tag => Sys2Proof.Machine.execStartTimer tag s
  | .stopTimer tag => Sys2Proof.Machine.execStopTimer tag s
  | .setLine tag => Sys2Proof.Machine.execSetLine tag s
  | .unknownCommand code tag => Sys2Proof.Machine.execUnknownCommand code tag s
  | .commandRefused code tag => Sys2Proof.Machine.execCommandRefused code tag s
  | .applyStationCommand => Sys2Proof.Machine.execApplyStationCommand s
  | .privateCycle pins => Sys2Proof.Machine.execPrivateCycle pins s
  | .queuePlaceGiven => Sys2Proof.Machine.execQueuePlaceGiven s
  | .stretchEnd pins => Sys2Proof.Machine.execStretchEnd pins s
  | .stageTwo e => Sys2Proof.Machine.execStageTwo e s

end Sys2Proof.Machine
end

