-- ==== Sys2Proof/Safety.lean ====
section
/-! DEFINITION. What a safe run is, and the invariants and frames that claims are stated in. -/

namespace Sys2Proof.Machine

/-! ### Safe steps -/

/-- The command at the front of the queue is performed: the machine does not stop. -/
def State.safe (s : State) : Prop := ∃ t, step s = .next t

/-! ### Invariants -/

/-- Memory is in its canonical form. -/
def State.memOk (s : State) : Prop := Memory.wf s.mem = true

/-- The private queue holds at most 16 entries (R7). -/
def Chip.queueOk (c : Chip) : Prop := c.path.queue.length ≤ Config.queueLimit

/-- NOTICE is low exactly when an unconsumed record of a class in the notice mask exists (R179). -/
def Chip.noticeOk (c : Chip) : Prop := c.evt.notice = noticeLow c.evt.unread c.ctl.noticeMask

/-- Each held list uses at most four slots (section 3.4). -/
def Chip.heldOk (c : Chip) : Prop := ∀ e, (c.held e).length ≤ Config.heldLimit

/-- The held frames of an engine have names of their own, below the next one (the model's own). -/
def Chip.namesOk (c : Chip) : Prop :=
  ∀ e, ((c.held e).map (·.id)).Nodup ∧ ∀ v ∈ c.held e, v.id < c.path.serial

/-- Every run of words, queued or waiting, has 1 to 16 words (R7). -/
def Work.sized : Work → Prop
  | .deposit _ ws => 1 ≤ ws.length ∧ ws.length ≤ 16
  | .fetch _ n => 1 ≤ n ∧ n ≤ 16
  | .inquiry _ _ _ => True
def Chip.runsOk (c : Chip) : Prop :=
  (∀ e ∈ c.path.queue, e.work.sized) ∧ ∀ o, ∀ e ∈ c.waiting o, e.work.sized

/-- The unit record in force is in its ranges (R20). -/
def UnitRec.inRange (u : UnitRec) : Prop :=
  1 ≤ u.nt ∧ u.nt ≤ 4 ∧ u.np ≤ 8 ∧ u.nr ≤ 16 ∧ u.c ≤ 3 ∧ u.u ≤ 254 ∧ 1 ≤ u.pLo ∧ u.pLo ≤ 254 ∧
    1 ≤ u.pHi ∧ u.pHi ≤ 254

/-- No access waits for the bus while none holds it (R14, assumption 3). -/
def Chip.busOk (c : Chip) : Prop := c.path.bus = none → c.path.asking = []

/-- The part's invariant. -/
def Chip.sound (c : Chip) : Prop :=
  c.queueOk ∧ c.noticeOk ∧ c.heldOk ∧ c.namesOk ∧ c.runsOk ∧ c.busOk ∧ c.ctl.unit.inRange

/-- The machine's invariant. -/
def State.sound (s : State) : Prop := s.memOk ∧ s.chip.sound

/-! ### States in which an access goes straight to memory -/

/-- RESET is released, WAIT holds no access, and the private queue has a place. -/
def State.busFree (s : State) : Prop :=
  s.chip.resetAsserted = false ∧ s.chip.path.bus = none ∧ s.chip.path.queue.length < Config.queueLimit

/-- As above, and no queued deposit holds the word at `a` unstruck: a read of it is not stretched (R13). -/
def State.readFree (s : State) (a : BusAddr) : Prop :=
  s.busFree ∧ lastHolding a.toNat s.chip.path.queue = 0

/-- As above, with no command in progress (R26). -/
def State.commandFree (s : State) : Prop := s.busFree ∧ s.chip.ctl.command = none

/-! ### What a command's access shows on the pins -/

/-- A processor's full-word write of the control-area word `o`. -/
def Chip.wordWrite (c : Chip) (o : Nat) (d : Word) : Option Pins :=
  some { master := .processor, write := true, addr := c.controlAddr o, be := 3, data := d }

/-- A processor's full-word write of the last word of a record, by the layout in force. -/
def Chip.lastWrite (c : Chip) (id : RecordId) (d : Word) : Option Pins :=
  c.wordWrite (recordFirst c.ctl.unit id + recordLength id - 1) d

/-- The code and the tag of a command word. -/
def commandWord : Instr → Option (Nat × Octet)
  | .load tag => some (0x01, tag)
  | .start tag _ => some (0x02, tag)
  | .stop tag => some (0x03, tag)
  | .restart tag => some (0x04, tag)
  | .status tag _ => some (0x05, tag)
  | .inquire tag => some (0x06, tag)
  | .setStation tag => some (0x10, tag)
  | .clearStation tag => some (0x11, tag)
  | .freeProxy tag => some (0x12, tag)
  | .quarantine tag => some (0x20, tag)
  | .releaseStation tag => some (0x21, tag)
  | .isolateTrunk tag => some (0x22, tag)
  | .releaseTrunk tag => some (0x23, tag)
  | .cancelJob tag => some (0x30, tag)
  | .holdPrinter tag => some (0x31, tag)
  | .resumePrinter tag => some (0x32, tag)
  | .startTimer tag => some (0x40, tag)
  | .stopTimer tag => some (0x41, tag)
  | .setLine tag => some (0x42, tag)
  | .unknownCommand code tag => some (code.toNat, tag)
  | .commandRefused code tag => some (code.toNat, tag)
  | _ => none

/-- What the access of a command shows on the pins of part `c`, none where the command is no access. -/
def Chip.shown (c : Chip) (i : Instr) : Option Pins :=
  match commandWord i with
  | some (code, tag) => c.wordWrite 0 (octetPair code tag.toNat)
  | none =>
    match i with
    | .masterRead m a be => some { master := m, write := false, addr := a, be := be, data := 0 }
    | .descriptorRead e a be =>
      some { master := engineMaster e, write := false, addr := a, be := be, data := 0 }
    | .masterWrite m a be d => some { master := m, write := true, addr := a, be := be, data := d }
    | .byteWrite o high d =>
      some
        { master := .processor, write := true, addr := c.controlAddr o.toNat,
          be := if high then 2 else 1, data := d }
    | .strayWrite m o be d =>
      some { master := m, write := true, addr := c.controlAddr o.toNat, be := be, data := d }
    | .headerCapture e a be d =>
      some { master := engineMaster e, write := true, addr := a, be := be, data := d }
    | .receiveCompletion e a d =>
      some { master := engineMaster e, write := true, addr := a, be := 3, data := d }
    | .cancellingWriteHeld m a be d => some { master := m, write := true, addr := a, be := be, data := d }
    | .cancellingWriteReleasing m a be d =>
      some { master := m, write := true, addr := a, be := be, data := d }
    | .transmitGuard a d => some { master := .processor, write := true, addr := a, be := 3, data := d }
    | .printerCompletion a d => some { master := .printEngine, write := true, addr := a, be := 3, data := d }
    | .printedCountWrite a d => some { master := .printEngine, write := true, addr := a, be := 3, data := d }
    | .stagingWrite o d => c.wordWrite o.toNat d
    | .unitRecordCommit d => c.lastWrite .unit d
    | .ringRecordCommit k d => c.lastWrite (.ring k) d
    | .healthRecordCommit d => c.lastWrite .health d
    | .printRecordCommit d => c.lastWrite .print d
    | .agingRecordCommit d => c.lastWrite .aging d
    | .lineRecordCommit l d _ => c.lastWrite (.line l) d
    | .timerRecordCommit k d => c.lastWrite (.timer k) d
    | .printerRecordCommit p d => c.lastWrite (.printer p) d
    | .reactionRecordCommit r d => c.lastWrite (.reaction r) d
    | .updateGate d _ => c.wordWrite 26 d
    | .noticeMask d => c.wordWrite 27 d
    | .recordMask d => c.wordWrite 28 d
    | .eventConsumerIndex d => c.wordWrite 25 d
    | _ => none

/-! ### Frames -/

/-- Memory is that of `s`, but for the octets of the word at `a` that the byte enables select, which hold
those of `d`. -/
def State.wordWritten (s t : State) (a : BusAddr) (be : BitVec 2) (d : Word) : Prop :=
  ∀ k, readOctet t.mem k =
    if k = 2 * a.toNat ∧ be.getLsbD 1 then hiOctet d
    else if k = 2 * a.toNat + 1 ∧ be.getLsbD 0 then loOctet d
    else readOctet s.mem k

/-- D15–D0, the commands waiting and the count of free values are those of `s`: what a write leaves. -/
def State.writeKept (s t : State) : Prop :=
  t.dataOut = s.dataOut ∧ t.pending = s.pending ∧ t.freeCount = s.freeCount

/-- Memory, D15–D0, the commands waiting and the count of free values are those of `s`. -/
def State.outsideKept (s t : State) : Prop := t.mem = s.mem ∧ s.writeKept t

/-- A full word written at the control-area word `o`, everything outside the part otherwise kept. -/
def State.wrote (s t : State) (o : Nat) (d : Word) : Prop :=
  s.wordWritten t (s.chip.controlAddr o) 3 d ∧ s.writeKept t

/-- A command word written, everything outside the part otherwise kept. -/
def State.commanded (s t : State) (code : Nat) (tag : Octet) : Prop :=
  s.wrote t 0 (octetPair code tag.toNat)

/-- The part once a full-word write of the control-area word `o` has struck the queue (R10). -/
def State.struckAt (s : State) (o : Nat) : Chip := strikeAt (s.chip.base + o) s.chip

/-- The part once the last word of a record has struck the queue and been staged. -/
def State.stagedLast (s : State) (id : RecordId) (d : Word) : Chip :=
  (s.struckAt (recordFirst s.chip.ctl.unit id + recordLength id - 1)).stage
    (stagingKey id (recordLength id - 1)) d

/-- The queue and what the units wait to add have only grown, at their tails; WAIT holds what it held. -/
def Chip.grew (c d : Chip) : Prop :=
  (∃ l, d.path.queue = c.path.queue ++ l) ∧ (∀ o, ∃ l, d.waiting o = c.waiting o ++ l) ∧
    d.path.bus = c.path.bus ∧ d.path.asking = c.path.asking

/-- The part `c`, but with the queue, the event unit and the command in progress of `d`. -/
def Chip.over (c d : Chip) : Chip :=
  { c with path := d.path, evt := d.evt, ctl := { c.ctl with command := d.ctl.command } }

/-- A deposit's words, none struck. -/
def unstruck (ws : List Word) : List (Word × Bool) := ws.map fun w => (w, false)

/-- The works of unit `o` in the order it formed them: those in the queue, then those that wait (R8). -/
def Chip.worksOf (c : Chip) (o : Owner) : List Work :=
  (c.path.queue.filter fun e => decide (e.owner = o)).map (·.work) ++ (c.waiting o).map (·.work)

/-- From `c` to `d` unit `o` has formed exactly the works `l`, in this order. -/
def Chip.formed (c d : Chip) (o : Owner) (l : List Work) : Prop := d.worksOf o = c.worksOf o ++ l

/-! ### Events (R175, R176, R178) -/

/-- An event as its records show it: class, kind, words 1–3 of the first, and the address of the second where
it has one (R175). Octets and words that no rule gives are 0 (assumption 37). -/
structure Logged where
  cls : EvClass
  kind : Nat
  w1 : Word
  w2 : Word
  w3 : Word
  addr : Option NewAddr
  deriving DecidableEq, Repr

/-- An event with no address. -/
def Logged.plain (cls : EvClass) (kind : Nat) (w1 w2 w3 : Word) : Logged :=
  { cls := cls, kind := kind, w1 := w1, w2 := w2, w3 := w3, addr := none }

/-- An event of a proxy, with its address. -/
def Logged.pair (kind : Nat) (w1 w2 w3 : Word) (x : NewAddr) : Logged :=
  { cls := .proxy, kind := kind, w1 := w1, w2 := w2, w3 := w3, addr := some x }

/-- What the event unit `v` of part `c` makes of an event: how it stands after it, and the deposits it forms,
the producer deposit after the last record (R175, R176). An event of a class not recorded makes none; one
for which the ring has no room joins the overflow set, and the lost count rises (R178). -/
def Chip.logStep (c : Chip) (v : EventUnit) (x : Logged) : EventUnit × List Work :=
  let r := 2 ^ (5 + c.ctl.unit.c)
  let room := (v.consumer + r - v.producer % r - 1) % r
  let put := fun (a : Nat) (ws : List Word) => Work.deposit a (unstruck ws)
  let place := fun n => c.base + c.ctl.unit.eventWord + 4 * n
  let head := fun (cls : EvClass) kind n => wordNat (cls.code * 8192 + kind * 256 + n)
  let p1 := (v.producer + 1) % r
  let p2 := (p1 + 1) % r
  let n1 := (v.sequence + 1) % 256
  let first := put (place v.producer) [head x.cls x.kind v.sequence, x.w1, x.w2, x.w3]
  if maskHas c.ctl.recordMask x.cls = false then (v, [])
  else
    match x.addr with
    | none =>
      if room < 1 then ({ v with overflow := maskAdd v.overflow x.cls, lost := min 65535 (v.lost + 1) }, [])
      else ({ v with producer := p1, sequence := n1 }, [first, put (c.base + 24) [wordNat p1]])
    | some m =>
      if room < 2 then ({ v with overflow := maskAdd v.overflow x.cls, lost := min 65535 (v.lost + 1) }, [])
      else
        ({ v with producer := p2, sequence := (n1 + 1) % 256 },
          [first, put (place p1) (head .proxy 7 n1 :: addrWords m), put (c.base + 24) [wordNat p2]])

/-- The same for events in turn. -/
def Chip.log (c : Chip) : EventUnit → List Logged → EventUnit × List Work
  | v, [] => (v, [])
  | v, x :: l => ((c.log (c.logStep v x).1 l).1, (c.logStep v x).2 ++ (c.log (c.logStep v x).1 l).2)

/-- From `c` to `d` exactly the events `l` have been handed to the event unit, in this order. -/
def Chip.logs (c d : Chip) (l : List Logged) : Prop :=
  d.evt = (c.log c.evt l).1 ∧ c.formed d .event (c.log c.evt l).2

/-- The queue and the waiting lists have grown by what the events `l` form, and by nothing else. -/
def Chip.only (c d : Chip) (l : List Logged) : Prop :=
  c.grew d ∧ c.logs d l ∧ ∀ o, o ≠ .event → c.formed d o []

/-- Nothing but the events `l` and the command in progress sets `d` apart from `c`. -/
def Chip.quiet (c d : Chip) (l : List Logged) : Prop := c.only d l ∧ d = c.over d

/-- The first word of the next event record of `c`, and word 0 of a record of a class and kind (R175). -/
def Chip.recordAddr (c : Chip) : Nat := c.base + c.ctl.unit.eventWord + 4 * c.evt.producer
def Chip.recordHead (c : Chip) (cls : EvClass) (kind : Nat) : Word :=
  wordNat (cls.code * 8192 + kind * 256 + c.evt.sequence)

/-- CONFIG_REFUSED with a reason and the offset of the record's first word (R19). -/
def configRefused (reason off : Nat) : Logged := .plain .control 3 0 (octetPair reason 0) (wordNat off)

/-- STATION_PRESENCE of station `n` from `old` to `new` (R57, R58). -/
def presenceEvent (n : Nat) (old new : Presence) : Logged :=
  .plain .station 5 (wordNat n) (octetPair old.code new.code) 0

/-- TRUNK_STATE of trunk `k`, with the states' codes, the strikes and the cause (R123). -/
def trunkEvent (k : Nat) (old new : TrunkState) (strikes cause : Nat) : Logged :=
  .plain .trunk 1 (wordNat k) (octetPair old.code new.code) (octetPair strikes cause)

/-- PRINTER_STATE of printer `p` with its cause, where the state changes (R152). -/
def printerEvents (p : Nat) (old new : PrinterState) (cause : Nat) : List Logged :=
  if old = new then []
  else [.plain .printer 1 (wordNat p) (octetPair old.code new.code) (octetPair cause 0)]

/-- An event of job `j` on printer `p` (R175). -/
def jobEvent (kind p j : Nat) (w2 w3 : Word) : Logged := .plain .job kind (wordNat (p * 256 + j)) w2 w3

/-! ### Replies (R26) -/

/-- The reply's deposit: words 5–7, with the result, the tag, the detail and the count (R26). -/
def Chip.replyWork (c : Chip) (tag : Octet) (d : Detail) (count : Nat) : Work :=
  .deposit (c.base + 5)
    (unstruck [octetPair (if d = .none then 1 else 2) tag.toNat, wordNat d.code, wordNat count])

/-- The command in progress waits for its reply, whose deposit stands in the queue or waits in the control unit
(R26). -/
def Chip.replied (c : Chip) (tag : Octet) (d : Detail) (count : Nat) : Prop :=
  c.ctl.command = some { tag := tag, phase := .replying } ∧
    ∃ e ∈ c.path.queue ++ c.path.waitControl, (∃ l, e.purpose = .reply l) ∧
      e.work = c.replyWork tag d count

/-- A command answered: its reply and the deposits of the events `l` are formed, and nothing else is. -/
def Chip.did (c d : Chip) (tag : Octet) (x : Detail) (count : Nat) (l : List Logged) : Prop :=
  d.replied tag x count ∧ c.grew d ∧ c.logs d l ∧ c.formed d .control [c.replyWork tag x count] ∧
    c.formed d .frame [] ∧ c.formed d .print []

/-- A command refused with a detail: its reply, and nothing else. -/
def Chip.refusedWith (c d : Chip) (tag : Octet) (x : Detail) : Prop :=
  c.did d tag x 0 [] ∧ d = c.over d

/-! ### Verdicts and stage two -/

/-- The words of a verdict with a station source and destination, a detail and a mask word (section 3.7). -/
def verdictOf (code src dst detail mask : Nat) : List (Word × Bool) :=
  unstruck [octetPair code src, octetPair dst detail, wordNat mask, 0]

/-- The words of a TO_PRINT verdict: detail, mask word (job, printer, buffer held) and reason (R132). -/
def printVerdict (src dst detail mask reason : Nat) : List (Word × Bool) :=
  unstruck [octetPair 7 src, octetPair dst detail, wordNat mask, wordNat reason]

/-- Frame `v` of engine `e` is released: its verdict words, then its status word with owner PROCESSOR, are the
next works of the frame unit, which may form one fetch for the next frame after them (R43, R45). -/
def State.released (s t : State) (e : Engine) (v : Slot) (words : List (Word × Bool)) : Prop :=
  s.outsideKept t ∧ s.chip.grew t.chip ∧ t.chip.ctl = s.chip.ctl ∧
    (t.chip.held e).map (·.id) = (s.chip.held e).map (·.id) ∧
    (∀ r, r ≠ e → t.chip.held r = s.chip.held r) ∧
    (∀ w ∈ t.chip.held e, w.id = v.id → w.phase = .releasing) ∧
    s.chip.worksOf .frame ++ [.deposit (v.word0 + 4) words,
      .deposit v.word0 (unstruck [wordNat (v.saved.toNat % 16384 + 16384)])] <+: t.chip.worksOf .frame ∧
    (t.chip.worksOf .frame).length ≤ (s.chip.worksOf .frame).length + 3 ∧
    s.chip.formed t.chip .control []

/-- Octet `k` of a held frame's header, as a number. -/
def Slot.num (v : Slot) (k : Nat) : Nat := (v.octet k).toNat

/-- Trunk `k` is present and connected. -/
abbrev Chip.up (c : Chip) (k : Nat) : Prop := k < c.ctl.unit.nt ∧ (c.trunk k).state.connected = true

/-- The header of six octets and its check octet, from octet `k` on, is good (R34). -/
def Slot.sumGood (v : Slot) (k : Nat) : Prop :=
  (v.num k + v.num (k + 1) + v.num (k + 2) + v.num (k + 3) + v.num (k + 4) + v.num (k + 5) + v.num (k + 7)) %
    256 = 255

/-- In RUN frame `v` is at evaluation with all it needs; no reaction is in force. -/
def Chip.evaluating (c : Chip) (e : Engine) (v : Slot) : Prop :=
  c.ctl.mode = .run ∧ c.atEvaluation e = some v ∧ v.ready c.ctl.unit e = true ∧ c.namesOk ∧ c.ctl.unit.nr = 0

/-- Coax frame `v` is at evaluation, its trunk connected, its verdict not fixed at completion. -/
def Chip.coaxFrame (c : Chip) (v : Slot) : Prop :=
  c.evaluating .coax v ∧ v.fixed = none ∧ c.up v.trunk

/-- Such a frame with a good header, from a station 1–254, whose length fits, to a destination other than 255:
it is heard and not MALFORMED (R35, R52). -/
def Chip.heardFrame (c : Chip) (v : Slot) : Prop :=
  c.coaxFrame v ∧ v.sumGood 0 ∧ v.length = 8 + (v.num 4 * 256 + v.num 5) ∧ v.num 0 ≠ 255 ∧ v.num 1 ≠ 0 ∧
    v.num 1 ≠ 255

/-- Such a frame from a GOOD LEGACY station heard on its own trunk, without error LONG. -/
def Chip.goodFrame (c : Chip) (v : Slot) : Prop :=
  c.heardFrame v ∧ coaxError v.saved ≠ 3 ∧ (c.station (v.num 1)).kind = .legacy ∧
    (c.station (v.num 1)).trunk = v.trunk ∧ (c.station (v.num 1)).quarantined = false

/-- Such a frame to the unit, of a print kind (R82, R92). -/
def Chip.printFrame (c : Chip) (v : Slot) (kind : Nat) : Prop :=
  c.goodFrame v ∧ v.num 0 ≠ 0 ∧ v.num 0 = c.ctl.unit.u ∧ v.num 2 = kind

/-- Pair frame `v` is a link frame at evaluation: without damage, and of the unit record's link type (R36, R87). -/
def Chip.linkArrived (c : Chip) (v : Slot) : Prop :=
  c.evaluating .pair v ∧ v.fixed = none ∧ pairError v.saved = 0 ∧ c.ctl.unit.linkType ≠ 0 ∧
    v.num 12 * 256 + v.num 13 = c.ctl.unit.linkType.toNat

/-- Such a frame with a good embedded header and a length that holds its payload, to the alias of station `a`,
which is not U (R36, R66, R88). -/
def Chip.linkFrame (c : Chip) (v : Slot) (a : Nat) : Prop :=
  c.linkArrived v ∧ a ≠ 0 ∧ a < 255 ∧ a ≠ c.ctl.unit.u ∧ c.ctl.unit.aliasBase.toNat % 256 = 0 ∧
    v.destAddr.toNat = c.ctl.unit.aliasBase.toNat + a ∧ v.sumGood 14 ∧
    22 + (v.num 18 * 256 + v.num 19) ≤ v.length

/-- The destination address M of a pair frame lies in the alias block (R66). -/
def Slot.toAlias (u : UnitRec) (v : Slot) : Prop := v.destAddr.toNat / 256 = u.aliasBase.toNat / 256

/-- M gives the frame the destination `d`, and tells whether it is addressed to the unit: by its alias octet, or,
where M is all ones, by the embedded destination (R67, R88, assumption 29). -/
def Slot.destined (u : UnitRec) (v : Slot) (d : Nat) (toUnit : Bool) : Prop :=
  (v.toAlias u ∧ v.destAddr.toNat % 256 = 0 ∧ d = u.u ∧ toUnit = true) ∨
    (d ≤ 254 ∧ toUnit = decide (u.u ≠ 0 ∧ d = u.u) ∧
      if v.destAddr = BitVec.allOnes 48 then v.num 14 = d
      else v.toAlias u ∧ v.destAddr.toNat % 256 = d ∧ d ≠ 0)

/-- M gives the frame no destination (R67, R88, assumption 29). -/
def Slot.destinedNowhere (u : UnitRec) (v : Slot) : Prop :=
  if v.destAddr = BitVec.allOnes 48 then v.num 14 = 255
  else ¬ v.toAlias u ∨ v.destAddr.toNat % 256 = 255

/-! ### Conditions on the state -/

/-- No reaction is in force, so no trigger fires (R172). -/
def Chip.noReactions (c : Chip) : Prop := c.ctl.unit.nr = 0

/-- No job is SUSPENDED. -/
def Chip.noneSuspended (c : Chip) : Prop := ∀ j, (c.job j).state ≠ .suspended

/-- Job `j` is SUSPENDED for trunk `k` and not abandoned: a release of the trunk resumes it (R149). -/
def Chip.suspendedFor (c : Chip) (k j : Nat) : Prop :=
  (c.job j).state = .suspended ∧ (c.job j).reason = none ∧ (c.job j).trunk = k

/-- No job that a release of trunk `k` resumes was WAITING for a READY printer: none takes a claim then. -/
def Chip.noneToServe (c : Chip) (k : Nat) : Prop :=
  ∀ j < 32, c.suspendedFor k j → (c.job j).resume = .waiting → (c.printer (c.job j).printer).state ≠ .ready

/-- The idle countdown a job gets on entering PRINTING (R140). -/
def Chip.idleSpan (c : Chip) : Option Nat :=
  if c.ctl.print.idleLimit = 0 then none else some (c.ctl.print.idleLimit * 100)

/-- Job `j` once trunk `k` is connected again (R149); the resume state and trunk it leaves behind are FREE and 0
(assumption 36). -/
def Chip.resumedBy (c : Chip) (k j : Nat) : Job :=
  if j < 32 ∧ (c.job j).state = .suspended ∧ (c.job j).reason = none ∧ (c.job j).trunk = k then
    { c.job j with
      state := (c.job j).resume
      resume := .free
      grace := none
      trunk := 0
      idle := if (c.job j).resume = .printing then c.idleSpan else none }
  else c.job j

/-- Station entry `n` once trunk `k` is connected again, by the silence limit of the last second boundary (R51,
R58, assumption 56). -/
def Chip.reachedBy (c : Chip) (k n : Nat) : Station :=
  if n ≠ 0 ∧ n < 255 ∧ (c.station n).kind = .legacy ∧ (c.station n).trunk = k ∧
      (c.station n).presence = .unreachable then
    { c.station n with
      presence := if c.stn.limits.silence ≤ (c.station n).age then .silent else .active }
  else c.station n

/-- The events of a trunk's release: its stations' presence and its jobs' resumption, each in ascending number
(assumption 53), then the trunk's own (R123). -/
def Chip.releaseEvents (c : Chip) (k strikes cause : Nat) : List Logged :=
  ((List.range 255).filter fun n =>
      decide (n ≠ 0 ∧ (c.station n).kind = .legacy ∧ (c.station n).trunk = k ∧
        (c.station n).presence = .unreachable)).map
    (fun n => presenceEvent n .unreachable (c.reachedBy k n).presence) ++
  ((List.range 32).filter fun j =>
      decide ((c.job j).state = .suspended ∧ (c.job j).reason = none ∧ (c.job j).trunk = k)).map
    (fun j => jobEvent 4 (c.job j).printer j (octetPair 1 0) 0) ++
  [trunkEvent k (c.trunk k).state .trial strikes cause]

/-- Station entry `n` once trunk `k` is cut (R58). -/
def Chip.cutBy (c : Chip) (k n : Nat) : Station :=
  if n ≠ 0 ∧ n < 255 ∧ (c.station n).kind = .legacy ∧ (c.station n).trunk = k then
    { c.station n with presence := .unreachable }
  else c.station n

/-- Job `j` once trunk `k` is cut (R148). -/
def Chip.hungBy (c : Chip) (k j : Nat) : Job :=
  if j < 32 ∧ (c.job j).state ≠ .free ∧ (c.job j).state ≠ .suspended ∧ (c.job j).reason = none ∧
      (c.station (c.job j).owner).kind = .legacy ∧ (c.station (c.job j).owner).trunk = k then
    { c.job j with
      state := .suspended
      resume := (c.job j).state
      trunk := k
      idle := none
      grace := some (c.ctl.print.grace * 100) }
  else c.job j

/-- The events of trunk `k`'s forced isolation: its stations' presence and its jobs' suspension, each in ascending
number (assumption 53), then the trunk's own (R123). -/
def Chip.cutEvents (c : Chip) (k cause : Nat) : List Logged :=
  ((List.range 255).filter fun n =>
      decide (n ≠ 0 ∧ (c.station n).kind = .legacy ∧ (c.station n).trunk = k ∧
        (c.station n).presence ≠ .unreachable)).map
    (fun n => presenceEvent n (c.station n).presence .unreachable) ++
  ((List.range 32).filter fun j => decide ((c.hungBy k j).state ≠ (c.job j).state)).map
    (fun j => jobEvent 3 (c.job j).printer j (octetPair k 0) 0) ++
  [trunkEvent k (c.trunk k).state .isolated (c.trunk k).strikes cause]

/-- Nothing that the last tick made due is still to be taken (assumption 7). -/
def Chip.nothingDue (c : Chip) : Prop :=
  c.stn.secondDue = false ∧ c.hlth.decayDue = false ∧
    (∀ t, (c.trunk t).countdown ≠ some 0 ∧ (c.trunk t).clearCountdown ≠ some 0) ∧
    (∀ j, (c.job j).idle ≠ some 0 ∧ (c.job j).grace ≠ some 0) ∧ ∀ k, c.timerDue k = false

/-- The levels the part drives are those R168 gives. -/
def Chip.linesDriven (c : Chip) : Prop := ∀ l < 8, c.drive l = driveLevel c (c.line l)

/-- Station entry `n` after a second boundary at which no entry has an open job: the age advanced, then the
silence and removal limits of a LEGACY entry, or the proxy free limit of a PROXY entry (R56, R57, R74). -/
def Chip.secondOf (c : Chip) (n : Nat) : Station :=
  let e := c.station n
  let a := min 65535 (e.age + 1)
  let past := fun limit => limit ≠ 0 ∧ e.pinned = false ∧ limit ≤ a
  if n = 0 ∨ 255 ≤ n then e
  else
    match e.kind with
    | .legacy =>
      if c.trunkUp e.trunk = false then e
      else if past c.ctl.aging.removal then Station.blank
      else if e.presence = .active ∧ c.ctl.aging.silence ≤ a then { e with age := a, presence := .silent }
      else { e with age := a }
    | .proxy => if past c.ctl.aging.proxyFree then Station.blank else { e with age := a }
    | _ => e

/-- Trunk record `r` after a decay tick, by the working health record `h` (R103, R108, R119). -/
def Trunk.decayedBy (h : HealthRec) (r : Trunk) : Trunk :=
  let s := r.score - max 1 (r.score * h.decayFactor / 256)
  if r.score = 0 ∨ h.decayFactor = 0 then r
  else if r.state = .watch ∧ s ≤ h.tw / 2 then
    { r with
      state := .inService, score := s, countdown := none, forced := false,
      clearCountdown := if r.strikes = 0 then none else some (h.clearInterval * 100) }
  else { r with score := s }

/-- Trunk record `r`, of a present and connected trunk, after a charge of weight `w`, by the working health
record `h` (R101, R106, R107, R116). -/
def Trunk.raisedBy (h : HealthRec) (w : Nat) (r : Trunk) : Trunk :=
  let up := min 65535 (r.score + w)
  let k := min 15 (r.strikes + 1)
  if w = 0 then r
  else if h.ti ≤ up then
    { r with
      score := up, strikes := k, clearCountdown := none, forced := false,
      state := if h.maxStrikes ≤ k then .lockedOut else .isolated,
      countdown := if h.maxStrikes ≤ k then none else some (min (h.holdBase * 2 ^ (k - 1)) h.holdMax * 100) }
  else if r.state = .inService ∧ r.score < h.tw ∧ h.tw ≤ up then
    { r with state := .watch, score := up, countdown := none, clearCountdown := none, forced := false }
  else { r with score := up }

/-- Trunk record `r`, of a present and connected trunk, after stage one of a frame of error kind `err`, by
the working health record `h` (R98, R106 to R108, R116). -/
def Trunk.scoredBy (h : HealthRec) (err : Nat) (r : Trunk) : Trunk :=
  let down := r.score - h.goodCredit
  if err = 0 then
    if r.state = .watch ∧ down < r.score ∧ down ≤ h.tw / 2 then
      { r with
        state := .inService, score := down, countdown := none, forced := false,
        clearCountdown := if r.strikes = 0 then none else some (h.clearInterval * 100) }
    else { r with score := down }
  else r.raisedBy h ([0, h.bodyCrc, h.short, h.long, h.code, h.reflection].getD err 0)

/-- The context of an engine after a read of word `w` of descriptor `i` that returned `d` (R37). -/
def Ctx.afterRead (x : Ctx) (i w : Nat) (d : Word) : Ctx :=
  let y := if x.index = some i then x
    else { index := some i, lo := none, hi := none, len := none, octets := [] }
  let part := if w = 1 then d else wordNat (bitsOf d 0 4)
  let held := if w = 1 then y.lo else y.hi
  let z := if held = none ∨ held = some part then y else { y with len := none, octets := [] }
  if w = 1 then { z with lo := some part } else if w = 2 then { z with hi := some part } else x

end Sys2Proof.Machine
end

