-- ==== Sys2Proof/Certificates/Slice0/Obligations.lean ====
section
/-! DEFINITION. The statements for the provers. Each names in its docstring the rules it rests on, and says
where it rests on a choice of the model's. A clause over a next state says, unit by unit, what is kept. Where
a record or a snapshot is stated word by word, the octets and words that no rule gives are 0 by the model's
choice (assumption 37). -/

open Sys2Proof Sys2Proof.Machine

/-! ### The step, reset, and accesses while RESET is asserted -/

/-- A step performs the command at the front of the queue on the rest of it; on an empty queue it idles
(the model's choice, assumption 1). Every command answers a next state: no path of the model stops. -/
def Obligations.StepPerformsTheFrontCommand : Prop :=
  (∀ (i : Instr) (rest : List Instr) (s : State),
    step { s with pending := i :: rest } = exec i { s with pending := rest }) ∧
  (∀ s : State, s.pending = [] → step s = .next s) ∧
  ∀ (i : Instr) (s : State), ∃ t, exec i s = .next t

/-- R24, of the part after a fall of RESET and of `State.reset`. -/
def Obligations.PinResetRestoresTheBuiltIns : Prop :=
  ∀ (b : Bool) (s : State), ∃ t, exec (.pinReset b) s = .next t ∧ ∀ c, c = t.chip ∨ c = State.reset.chip →
    c.ctl.mode = .pass ∧ c.ctl.command = none ∧ c.ctl.gateClosed = false ∧
    c.ctl.pendingCommits = [] ∧ c.ctl.awaitingHealth = none ∧ (∀ p, c.awaitingPrinter p = none) ∧
    c.ctl.unitCommitted = false ∧ c.ctl.coaxRing = none ∧ c.ctl.pairRing = none ∧
    c.ctl.transmitRing = none ∧ (∀ k, c.staged k = 0) ∧
    c.ctl.unit.nt = 1 ∧ c.ctl.unit.np = 0 ∧ c.ctl.unit.nr = 0 ∧ c.ctl.unit.c = 0 ∧ c.ctl.unit.u = 0 ∧
    c.ctl.unit.proxyRange = [] ∧ c.ctl.unit.aliasBase = 0 ∧ c.ctl.unit.linkType = 0 ∧
    c.ctl.health =
      { bodyCrc := 60, short := 20, long := 80, code := 30, reflection := 120, header := 40,
        malformed := 40, goodCredit := 2, decayFactor := 32, stationStep := 1, decayInterval := 10,
        tw := 400, ti := 1000, holdBase := 5, holdMax := 300, trial := 30, clearInterval := 600,
        stationLong := 16, stationMismatch := 8, stationConflict := 64, stationLimit := 128,
        maxStrikes := 4 } ∧
    c.ctl.print = { idleLimit := 30, grace := 20, waitCap := 8 } ∧
    c.ctl.aging = { silence := 120, removal := 3600, proxyFree := 900, reclaimMin := 60, flapWindow := 10 } ∧
    (∀ l, (c.line l).record.fn = .unused) ∧
    (∀ k, (c.timer k).running = false ∧ (c.timer k).record = { period := 0, repeats := false }) ∧
    (∀ p, (c.printerRec p).enabled = false) ∧ (∀ r, (c.reaction r).enabled = false) ∧
    c.ctl.recordMask = 255 ∧ c.ctl.noticeMask = 0

/-- R1, R2 and R15: the fall of RESET resets the part and leaves memory, but for a deposit broken off, whose first
words are written in address order (the model's reading, assumption 9), and an access that WAIT holds, here
with no other asked for. The release samples the straps, and the control area is where they say; a release
with RESET not asserted changes nothing (assumption 5). While RESET is asserted every access reaches memory
as the master made it and no unit takes it. -/
def Obligations.ResetFallsAndIsReleased : Prop :=
  (∀ (b : Bool) (s : State), ∃ t, exec (.pinReset b) s = .next t ∧ t.pending = s.pending ∧
    t.chip = { Chip.reset with resetAsserted := true, cab := s.chip.cab, pins := s.chip.pins } ∧
    (s.chip.path.bus = none → t.dataOut = s.dataOut ∧ (b = false → t.mem = s.mem) ∧
      (b = true → s.chip.path.queue = [] → t.mem = s.mem) ∧
      (b = true → ∀ e q a n, s.chip.path.queue = e :: q → e.work = .fetch a n → t.mem = s.mem) ∧
      (b = true → ∀ e q a ws, s.chip.path.queue = e :: q → e.work = .deposit a ws →
        ∃ k, t.mem = writeRun s.mem a ws k)) ∧
    ∀ x, s.chip.path.bus = some x → b = false → s.chip.path.asking = [] →
      (x.access.write = true → t.dataOut = s.dataOut ∧
        t.mem = writeMasked s.mem x.access.addr x.access.be x.access.data) ∧
      (x.access.write = false → t.mem = s.mem ∧ t.dataOut = readWord s.mem x.access.addr)) ∧
  (∀ (cab : BitVec 7) (s : State),
    (s.chip.resetAsserted = false → exec (.resetRelease cab) s = .next s) ∧
    (s.chip.resetAsserted = true → ∃ t, exec (.resetRelease cab) s = .next t ∧ s.outsideKept t ∧
      t.chip = { s.chip with resetAsserted := false, cab := cab } ∧ t.chip.base = cab.toNat * 8192 ∧
      ∀ o < 8192, t.chip.classify (cab.toNat * 8192 + o) = .control o) ∧
    ∀ (b : Bool) (t : State), exec (.pinReset b) s = .next t → ∃ u, exec (.resetRelease cab) t = .next u ∧
      u.chip = { Chip.reset with cab := cab, pins := s.chip.pins } ∧ u.mem = t.mem) ∧
  ∀ (i : Instr) (p : Pins) (s : State), s.chip.shown i = some p → s.chip.resetAsserted = true →
    ∃ t, exec i s = .next t ∧ t.chip = { s.chip with pins := t.chip.pins } ∧ t.pending = s.pending ∧
      t.freeCount = s.freeCount ∧
      (p.write = true → s.wordWritten t p.addr p.be p.data ∧ t.dataOut = s.dataOut) ∧
      (p.write = false → t.mem = s.mem ∧ t.dataOut = readWord s.mem p.addr.toNat)

/-! ### Ticks and what they make due -/

/-- R25: a tick in PASS or LOADING changes nothing; a step of a tick's work that is not due changes nothing (the
model's choice, assumption 7). R49, R102, R115, R140, R149, R164 and R169: a tick in RUN, with nothing left
due by the tick before, no reaction in force, and no PRINTER_READY line of a STALLED printer. -/
def Obligations.TicksAdvanceTheCounts : Prop :=
  (∀ s : State,
    (∀ pins, s.chip.ctl.mode ≠ .run →
      exec (.tick pins) s = .next { s with chip := { s.chip with pins := pins } }) ∧
    (s.chip.stn.secondDue = false → exec .secondBoundary s = .next s) ∧
    (s.chip.hlth.decayDue = false → exec .decayTick s = .next s) ∧
    (∀ t, s.chip.countdownDue .isolated t = false → exec (.holdExpiry t) s = .next s) ∧
    (∀ t, s.chip.countdownDue .trial t = false → exec (.trialExpiry t) s = .next s) ∧
    (∀ t, (s.chip.trunk t).clearCountdown ≠ some 0 → exec (.clearCountdownExpiry t) s = .next s) ∧
    (∀ j, (s.chip.job j).idle ≠ some 0 → exec (.idleCountdownExpiry j) s = .next s) ∧
    (∀ j, (s.chip.job j).grace ≠ some 0 → exec (.graceCountdownExpiry j) s = .next s) ∧
    ∀ k, s.chip.timerDue k = false → exec (.timerExpiry k) s = .next s) ∧
  ∀ (pins : Octet) (s : State), s.chip.ctl.mode = .run → s.chip.nothingDue → s.chip.noReactions →
    (∀ l < 8, (s.chip.line l).record.fn = .printerReady →
      (s.chip.printer (s.chip.line l).record.obj).state ≠ .stalled) →
    ∃ t, exec (.tick pins) s = .next t ∧ s.outsideKept t ∧
      t.chip = { s.chip with
        pins := pins
        stn := { s.chip.stn with
          clock := s.chip.stn.clock + 1
          secondDue := decide ((s.chip.stn.clock + 1).toNat % 100 = 0) }
        hlth := { s.chip.hlth with
          trunks := t.chip.hlth.trunks
          decayCount := min 65535 (s.chip.hlth.decayCount + 1)
          decayDue := decide (s.chip.ctl.health.decayInterval ≤ min 65535 (s.chip.hlth.decayCount + 1)) }
        prt := { s.chip.prt with jobs := t.chip.prt.jobs }
        rct := { s.chip.rct with timers := t.chip.rct.timers, lines := t.chip.rct.lines } } ∧
      (∀ k, t.chip.trunk k =
        if k < 4 then { s.chip.trunk k with
          countdown := (s.chip.trunk k).countdown.map (· - 1)
          clearCountdown := (s.chip.trunk k).clearCountdown.map (· - 1) }
        else s.chip.trunk k) ∧
      (∀ j, t.chip.job j =
        if j < 32 then { s.chip.job j with
          idle := (s.chip.job j).idle.map (· - 1)
          grace := (s.chip.job j).grace.map (· - 1) }
        else s.chip.job j) ∧
      (∀ k, t.chip.timer k =
        if k < 4 ∧ (s.chip.timer k).running = true then
          { s.chip.timer k with count := (s.chip.timer k).count - 1 }
        else s.chip.timer k) ∧
      ∀ l, t.chip.line l =
        if l < 8 ∧ (s.chip.line l).record.fn.samples = true then
          { s.chip.line l with sampled := Chip.pinActive { s.chip with pins := pins } l }
        else s.chip.line l

/-- R51, R56, R57 and R74, where no station entry has an open job: the aging record's limits come into force,
the ages advance, and the limits are applied, LEGACY entries first and then PROXY entries, each in ascending
number (that order is assumption 18). -/
def Obligations.SecondBoundaryAgesTheTable : Prop :=
  ∀ s : State, s.chip.stn.secondDue = true → (∀ n, (s.chip.station n).openJob = none) →
    let was := s.chip.station
    let events (kind : Kind) (f : Nat → List Logged) :=
      ((List.range 255).filter fun n => decide (n ≠ 0 ∧ (was n).kind = kind)).flatMap f
    ∃ t, exec .secondBoundary s = .next t ∧ s.outsideKept t ∧ t.chip.ctl = s.chip.ctl ∧
      t.chip = (s.chip.over t.chip).withStn
        { s.chip.stn with
          table := t.chip.stn.table, secondDue := false, limits := s.chip.ctl.aging.limits } ∧
      (∀ n, t.chip.station n = s.chip.secondOf n) ∧
      s.chip.only t.chip
        (events .legacy (fun n =>
          let a := min 65535 ((was n).age + 1)
          if s.chip.trunkUp (was n).trunk = false then []
          else
            (if (was n).presence = .active ∧ s.chip.ctl.aging.silence ≤ a then
              [presenceEvent n .active .silent] else []) ++
            (if s.chip.secondOf n = Station.blank then
              [.plain .station 6 (wordNat n) (octetPair (was n).trunk 0) 0] else [])) ++
        events .proxy (fun n =>
          if s.chip.secondOf n = Station.blank then
            [.pair 4 (wordNat n) (octetPair 1 0) 0 (was n).addr] else []))

/-- R102 to R104, R108 and R112, where no reaction is in force: every trunk below NT and every station score
decays, an awaiting health commit takes effect after that, and the count starts again. A WATCH trunk that
falls to floor(TW / 2) returns to IN_SERVICE, a QUARANTINED station whose score comes to 0 is released, and
each is recorded, the trunks first. -/
def Obligations.DecayTickLowersTheScores : Prop :=
  ∀ s : State, s.chip.hlth.decayDue = true → s.chip.noReactions →
    let freed := fun n => n ≠ 0 ∧ n < 255 ∧ (s.chip.station n).quarantined = true ∧
      (s.chip.station n).score ≠ 0 ∧ (s.chip.station n).score ≤ s.chip.ctl.health.stationStep
    ∃ t, exec .decayTick s = .next t ∧ s.outsideKept t ∧
      t.chip = { s.chip with
        path := t.chip.path
        evt := t.chip.evt
        ctl := { s.chip.ctl with
          health := s.chip.ctl.awaitingHealth.getD s.chip.ctl.health
          awaitingHealth := none }
        hlth := { trunks := t.chip.hlth.trunks, decayCount := 0, decayDue := false }
        stn := { s.chip.stn with table := t.chip.stn.table }
        rct := { s.chip.rct with driven := t.chip.rct.driven } } ∧
      (∀ k, t.chip.trunk k =
        if k < 4 ∧ k < s.chip.ctl.unit.nt then (s.chip.trunk k).decayedBy s.chip.ctl.health
        else s.chip.trunk k) ∧
      (∀ n, t.chip.station n =
        if n = 0 ∨ 255 ≤ n then s.chip.station n
        else { s.chip.station n with
          score := (s.chip.station n).score - s.chip.ctl.health.stationStep
          quarantined := (s.chip.station n).quarantined && !(decide (freed n)) }) ∧
      s.chip.only t.chip
        (((List.range 4).filter fun k => decide ((t.chip.trunk k).state ≠ (s.chip.trunk k).state)).map
          (fun k => trunkEvent k .watch .inService (s.chip.trunk k).strikes 2) ++
        ((List.range 255).filter fun n => decide (freed n)).map
          fun n => .plain .station 11 (wordNat n) (octetPair 1 0) 0)

/-- R51, R58, R117 to R119, R123 and R149, where no reaction is in force: the ends of a hold, of a trial and of
a clear interval. A trunk whose hold ends takes its stations and its SUSPENDED jobs with it, here with none
of them WAITING for a READY printer; that the silence limit tested is the last second boundary's is
assumption 56, the order of the records within a trunk assumption 53, and that a resumed job keeps no resume
state and no trunk (FREE and 0) assumption 36, each the model's choice. -/
def Obligations.TrunkExpiriesMoveTheTrunk : Prop :=
  ∀ (k : Nat) (s : State), s.chip.noReactions →
    let r := s.chip.trunk k
    let after := if r.score < s.chip.ctl.health.tw then TrunkState.inService else .watch
    (s.chip.countdownDue .isolated k = true → s.chip.noneToServe k →
      ∃ t, exec (.holdExpiry k) s = .next t ∧ s.outsideKept t ∧ t.chip.ctl = s.chip.ctl ∧
        t.chip.linesDriven ∧
        t.chip = { s.chip.over t.chip with
          hlth := { s.chip.hlth with trunks := t.chip.hlth.trunks }
          stn := { s.chip.stn with table := t.chip.stn.table }
          prt := { s.chip.prt with jobs := t.chip.prt.jobs }
          rct := { s.chip.rct with driven := t.chip.rct.driven } } ∧
        (∀ i, t.chip.trunk i =
          if i = k then { r with
            state := .trial
            score := s.chip.ctl.health.ti / 2
            countdown := some (s.chip.ctl.health.trial * 100)
            clearCountdown := none
            forced := false }
          else s.chip.trunk i) ∧
        (∀ n, t.chip.station n = s.chip.reachedBy k n) ∧ (∀ j, t.chip.job j = s.chip.resumedBy k j) ∧
        s.chip.only t.chip (s.chip.releaseEvents k r.strikes 3)) ∧
    (s.chip.countdownDue .trial k = true →
      ∃ t, exec (.trialExpiry k) s = .next t ∧ s.outsideKept t ∧ t.chip.ctl = s.chip.ctl ∧
        t.chip.linesDriven ∧
        t.chip = { s.chip.over t.chip with
          hlth := { s.chip.hlth with trunks := t.chip.hlth.trunks }
          rct := { s.chip.rct with driven := t.chip.rct.driven } } ∧
        (∀ i, t.chip.trunk i =
          if i ≠ k then s.chip.trunk i
          else { r with
            state := after
            countdown := none
            forced := false
            clearCountdown := if after = .watch ∨ r.strikes = 0 then none
              else some (s.chip.ctl.health.clearInterval * 100) }) ∧
        s.chip.only t.chip [trunkEvent k .trial after r.strikes 4]) ∧
    (r.clearCountdown = some 0 →
      ∃ t, exec (.clearCountdownExpiry k) s = .next t ∧ s.outsideKept t ∧ t.chip.ctl = s.chip.ctl ∧
        t.chip = (s.chip.over t.chip).withHlth { s.chip.hlth with trunks := t.chip.hlth.trunks } ∧
        (∀ i, t.chip.trunk i =
          if i = k then { r with strikes := 0, clearCountdown := none } else s.chip.trunk i) ∧
        s.chip.only t.chip [.plain .trunk 2 (wordNat k) (octetPair r.strikes 0) 0])

/-- R140, R142, R143 and R149, where no reaction is in force: an idle countdown that expires with text still
SPOOLED starts again; with text in the ring only, the job is closed with TIMEOUT; with nothing, it ends with
JOB_DONE and passes its claim on, here to no job. A grace countdown's expiry abandons the job with reason
ISOLATED, here one that holds no claim and no text; one with a claim or with text is left out. -/
def Obligations.JobCountdownExpiries : Prop :=
  ∀ (j : Nat) (s : State), s.chip.noReactions →
    let v := s.chip.job j
    let p := v.printer
    let closedFor := fun (t : State) => ∀ n, t.chip.station n =
      if n = v.owner ∧ (s.chip.station n).openJob = some j then { s.chip.station n with openJob := none }
      else s.chip.station n
    let ended := fun (t : State) => s.outsideKept t ∧ t.chip.ctl = s.chip.ctl ∧
      t.chip = { s.chip.over t.chip with
        prt := { s.chip.prt with jobs := t.chip.prt.jobs, printers := t.chip.prt.printers }
        stn := { s.chip.stn with table := t.chip.stn.table } } ∧
      (∀ i, t.chip.job i = if i = j then Job.blank else s.chip.job i) ∧ closedFor t
    (v.idle = some 0 → (∃ i ∈ v.spool, s.chip.entryInRing i = false) →
      ∃ t, exec (.idleCountdownExpiry j) s = .next t ∧ s.outsideKept t ∧
        t.chip = s.chip.withPrt { s.chip.prt with jobs := t.chip.prt.jobs } ∧
        ∀ i, t.chip.job i = if i = j then { v with idle := s.chip.idleSpan } else s.chip.job i) ∧
    (v.idle = some 0 → v.spool ≠ [] → (∀ i ∈ v.spool, s.chip.entryInRing i = true) →
      ∃ t, exec (.idleCountdownExpiry j) s = .next t ∧ s.outsideKept t ∧
        t.chip = (s.chip.withPrt { s.chip.prt with jobs := t.chip.prt.jobs }).withStn
          { s.chip.stn with table := t.chip.stn.table } ∧
        (∀ i, t.chip.job i =
          if i = j then { v with state := .closing, closed := .timeout, idle := none }
          else s.chip.job i) ∧ closedFor t) ∧
    (v.idle = some 0 → v.spool = [] → v.reason = none → (s.chip.printer p).claim = some j →
      (s.chip.printer p).queue = [] → s.chip.awaitingPrinter p = none →
      ∃ t, exec (.idleCountdownExpiry j) s = .next t ∧ ended t ∧
        (∀ q, t.chip.printer q =
          if q = p then { s.chip.printer q with claim := none } else s.chip.printer q) ∧
        s.chip.only t.chip [jobEvent 5 p j (octetPair v.owner 2) (wordNat v.printed)]) ∧
    (v.grace = some 0 → v.spool = [] → v.reason = none → v.state ≠ .free →
      (s.chip.printer p).claim ≠ some j →
      ∃ t, exec (.graceCountdownExpiry j) s = .next t ∧ ended t ∧
        (∀ q, t.chip.printer q =
          if q = p then { s.chip.printer q with queue := (s.chip.printer q).queue.filter (· ≠ j) }
          else s.chip.printer q) ∧
        s.chip.only t.chip [jobEvent 6 p j (octetPair v.owner 8) 0])

/-- R164, R172 and R173: a timer's expiry, where every reaction in force that it fires has action NOTE: the
expiry is counted and recorded, then in RUN each such reaction, in ascending number, records REACTION_NOTE,
a once reaction losing its enable. -/
def Obligations.TimerExpiryCountsAndReloads : Prop :=
  ∀ (k : Nat) (s : State), s.chip.timerDue k = true →
    let v := s.chip.timer k
    let fires := fun r => s.chip.ctl.mode = .run ∧ r < 16 ∧ r < s.chip.ctl.unit.nr ∧
      (s.chip.reaction r).enabled = true ∧ (s.chip.reaction r).trigger = .timer ∧
      (s.chip.reaction r).triggerObj = k
    (∀ r < 16, fires r → (s.chip.reaction r).action = .note) →
      ∃ t, exec (.timerExpiry k) s = .next t ∧ s.outsideKept t ∧ t.chip.ctl = s.chip.ctl ∧
        t.chip = (s.chip.over t.chip).withRct
          { s.chip.rct with timers := t.chip.rct.timers, reactions := t.chip.rct.reactions } ∧
        (∀ i, t.chip.timer i =
          if i ≠ k then s.chip.timer i
          else if v.record.repeats = true ∧ v.record.period ≠ 0 then
            { v with expiries := v.expiries + 1, running := true, count := v.record.period }
          else { v with expiries := v.expiries + 1, running := false, count := 0 }) ∧
        (∀ r, t.chip.reaction r =
          if fires r then { s.chip.reaction r with enabled := !(s.chip.reaction r).once }
          else s.chip.reaction r) ∧
        s.chip.only t.chip (.plain .reaction 1 (wordNat k) 0 (v.expiries + 1) ::
          ((List.range 16).filter fun r => decide (fires r)).map
            fun r => .plain .reaction 2 (wordNat r) (octetPair (s.chip.reaction r).actionObj 0) 0)

/-! ### Accesses -/

/-- R4, R5, R6, R9, R13, R39 and R93: a write that is not stretched changes memory in the octets of its own word
that its byte enables select, and there holds the master's data, unless it is, in RUN, a completion or a
hand-over write the guard acts on; a write with no byte enable is shown to no unit, and that it strikes
no queued deposit either is the model's reading (assumption 35). A read that meets no queued deposit of its
word returns the word memory holds, and the part takes nothing from it but a receive engine's read in its own
ring (R37). -/
def Obligations.AccessesReachMemory : Prop :=
  (∀ (i : Instr) (p : Pins) (s : State), s.chip.shown i = some p → p.write = true → s.busFree →
    s.chip.noSlotFor (p.access s.chip) = false →
    ∃ t, exec i s = .next t ∧ s.writeKept t ∧ (p.be = 0 → t.chip = { s.chip with pins := t.chip.pins }) ∧
      (∀ k, (k = 2 * p.addr.toNat ∧ p.be.getLsbD 1 = true) ∨
        (k = 2 * p.addr.toNat + 1 ∧ p.be.getLsbD 0 = true) ∨ readOctet t.mem k = readOctet s.mem k) ∧
      let owner := bitsOf p.data 14 2
      let completes := ∃ e off, s.chip.classify p.addr.toNat = .receive e off ∧ off % 8 = 0 ∧
        masterEngine p.master = some e ∧ owner = 1
      let handsOver := ∃ off, s.chip.classify p.addr.toNat = .transmit off ∧ off % 8 = 0 ∧
        p.master = .processor ∧ owner ≠ 1
      ((s.chip.ctl.mode ≠ .run ∨ p.be ≠ 3 ∨ (¬ completes ∧ ¬ handsOver)) → s.wordWritten t p.addr p.be p.data)) ∧
  ∀ (m : Master) (a : BusAddr) (be : BitVec 2) (s : State), s.readFree a →
    ∃ t, exec (.masterRead m a be) s = .next t ∧ t.mem = s.mem ∧ t.pending = s.pending ∧
      t.freeCount = s.freeCount ∧ t.dataOut = readWord s.mem a.toNat ∧
      t.chip = { s.chip with frm := t.chip.frm } ∧ (∀ e, t.chip.held e = s.chip.held e) ∧
      ((∀ e off, s.chip.classify a.toNat = .receive e off → masterEngine m ≠ some e) → t.chip = s.chip)

/-- R37, for a read that is not stretched and for a stretched one as it ends, in every mode; the buffer address
is known once both its parts are, bits 3–0 of the high part above the low part (section 3.1). -/
def Obligations.DescriptorReadsSetTheContext : Prop :=
  ∀ (m : Master) (a : BusAddr) (s : State),
    let read := fun (t : State) => ∀ e, (t.chip.ctx e =
        match s.chip.classify a.toNat with
        | .receive r off =>
          if r = e ∧ masterEngine m = some e ∧ (off % 8 = 1 ∨ off % 8 = 2) then
            (s.chip.ctx e).afterRead (off / 8) (off % 8) (readWord s.mem a.toNat)
          else s.chip.ctx e
        | _ => s.chip.ctx e) ∧
      (t.chip.ctx e).buffer =
        (if (t.chip.ctx e).lo = none ∨ (t.chip.ctx e).hi = none then none
        else some (((t.chip.ctx e).hi.getD 0).toNat % 16 * 65536 + ((t.chip.ctx e).lo.getD 0).toNat))
    (∀ be, s.readFree a → ∃ t, exec (.masterRead m a be) s = .next t ∧ read t) ∧
    (∀ e be, m = engineMaster e → s.readFree a →
      ∃ t, exec (.descriptorRead e a be) s = .next t ∧ t.mem = s.mem ∧
        t.dataOut = readWord s.mem a.toNat ∧ t.pending = s.pending ∧ t.freeCount = s.freeCount ∧
        t.chip = { s.chip with frm := t.chip.frm } ∧ (∀ r, t.chip.held r = s.chip.held r) ∧ read t) ∧
    ∀ pins be, s.chip.path.bus = some { access := classed s.chip m false a be 0, owed := 0 } →
      s.chip.path.asking = [] →
      ∃ t, exec (.stretchEnd pins) s = .next t ∧ read t

/-- R12 to R14: an access that meets a queued deposit of the word it reads, a full queue, or, as a completion
in RUN, four slots in use by other descriptors, is held by WAIT, and nothing else happens; a read waits for
the private cycles up to the last queued deposit of its word, and any access at a full queue for one. While
WAIT holds a completion that no work of the part can end, no other access begins: it is asked for, and
waits for the bus (that the model keeps such accesses in order is assumption 3). -/
def Obligations.WaitHoldsTheAccess : Prop :=
  ∀ (i : Instr) (p : Pins) (s : State), s.chip.shown i = some p → s.chip.resetAsserted = false →
    let full := fun (x : Access) => ∃ e k, x.completion = some (e, k) ∧ s.chip.ctl.mode = .run ∧
      4 ≤ ((s.chip.held e).filter fun v => !inRun v.word0 8 x.addr).length
    (s.chip.path.bus = none →
      ((p.write = false ∧ lastHolding p.addr.toNat s.chip.path.queue ≠ 0) ∨
        16 ≤ s.chip.path.queue.length ∨ full (p.access s.chip)) →
      ∃ t, exec i s = .next t ∧ s.outsideKept t ∧
        t.chip = { s.chip with
          pins := t.chip.pins
          path := { s.chip.path with
            bus := some
              { access := p.access s.chip
                owed := max (if p.write then 0 else lastHolding p.addr.toNat s.chip.path.queue)
                  (if 16 ≤ s.chip.path.queue.length then 1 else 0) } } }) ∧
    ∀ b, s.chip.path.bus = some b → full b.access → s.chip.path.queue = [] →
      (∀ o, s.chip.offered o = none) →
      (∀ e v, s.chip.atEvaluation e = some v → v.ready s.chip.ctl.unit e = false) →
      ∃ t, exec i s = .next t ∧ s.outsideKept t ∧
        t.chip = { s.chip with
          pins := t.chip.pins
          path := { s.chip.path with asking := s.chip.path.asking ++ [p] } }

/-- R12 to R14: while private cycles are owed or the four slots of a completion's engine are in use by other
descriptors, the end of the stretch does not come. When no cause holds, here with no other access asked
for, a stretched read returns the word memory then holds; a stretched write in plain memory, by a master
that is no receive engine, reaches memory and strikes the queue; a stretched completion takes its slot and
reaches memory with owner HELD_BY_PART. An access asked for meanwhile then begins (assumption 3). With no
access held nothing happens. -/
def Obligations.StretchEndsWhenNoCauseHolds : Prop :=
  ∀ (pins : Octet) (s : State),
    let kept := fun (t : State) => t.pending = s.pending ∧ t.freeCount = s.freeCount
    let same := exec (.stretchEnd pins) s = .next { s with chip := { s.chip with pins := pins } }
    (s.chip.path.bus = none → same) ∧
    ∀ x n, s.chip.path.bus = some { access := x, owed := n } →
      let others := fun e => ((s.chip.held e).filter fun v => !inRun v.word0 8 x.addr).length
      let ended := n = 0 ∨ s.chip.path.queue = []
      (¬ ended → same) ∧
      (∀ e k, x.completion = some (e, k) → s.chip.ctl.mode = .run → 4 ≤ others e → same) ∧
      (ended → x.write = false → s.chip.path.asking = [] →
        ∃ t, exec (.stretchEnd pins) s = .next t ∧ kept t ∧ t.mem = s.mem ∧
          t.dataOut = readWord s.mem x.addr ∧
          t.chip = { s.chip with
            pins := pins
            frm := t.chip.frm
            path := { s.chip.path with bus := none } }) ∧
      (ended → x.write = true → x.region = .plain → x.be ≠ 0 → masterEngine x.master = none →
        s.chip.path.asking = [] →
        ∃ t, exec (.stretchEnd pins) s = .next t ∧ kept t ∧ t.dataOut = s.dataOut ∧
          t.mem = writeMasked s.mem x.addr x.be x.data ∧
          t.chip = strikeAt x.addr { s.chip with
            pins := pins
            path := { s.chip.path with bus := none } }) ∧
      (∀ e k, ended → x.completion = some (e, k) → s.chip.ctl.mode = .run → others e < 4 →
        s.chip.slotsAt e x.addr = [] → s.chip.namesOk → s.chip.noReactions → s.chip.path.asking = [] →
        ∃ t v, exec (.stretchEnd pins) s = .next t ∧ kept t ∧ t.dataOut = s.dataOut ∧
          t.mem = writeMasked s.mem x.addr 3 (wordNat (2 * 16384 + x.data.toNat % 16384)) ∧
          t.chip.path.bus = none ∧ v ∈ t.chip.held e ∧ v.index = k ∧ v.word0 = x.addr ∧
          v.phase = .heldWaiting ∧ (t.chip.held e).map (·.id) = (s.chip.held e).map (·.id) ++ [v.id]) ∧
      (∀ p, s.chip.path.asking = [p] → ended → s.chip.resetAsserted = false → p.write = true →
        (∀ e k, x.completion ≠ some (e, k)) →
        ∃ t, exec (.stretchEnd pins)
            { s with chip := { s.chip with path := { s.chip.path with asking := [] } } } = .next t ∧
          exec (.stretchEnd pins) s = exec (.masterWrite p.master p.addr p.be p.data) t)

/-- R4, R10: a write in plain memory, by a master that is no receive engine. In each queued deposit its word is
struck, a deposit struck whole leaves the queue, and every other stays as it was, in its order; where none
leaves, nothing but the queue changes. -/
def Obligations.PlainWritesStrikeTheQueue : Prop :=
  ∀ (m : Master) (a : BusAddr) (be : BitVec 2) (d : Word) (s : State), s.busFree → be ≠ 0 →
    masterEngine m = none → s.chip.classify a.toNat = .plain →
    ∃ t, exec (.masterWrite m a be d) s = .next t ∧ s.wordWritten t a be d ∧ s.writeKept t ∧
      t.chip = s.chip.over t.chip ∧
      t.chip.path = { s.chip.path with
        queue := (s.chip.path.queue.map (strikeEntry a.toNat)).filter fun e => !e.allStruck } ∧
      lastHolding a.toNat t.chip.path.queue = 0 ∧
      (∀ e ∈ s.chip.path.queue, ∀ n k, e.work = .fetch n k → e ∈ t.chip.path.queue) ∧
      ((∀ e ∈ s.chip.path.queue, (strikeEntry a.toNat e).allStruck = false) →
        t.chip = s.chip.withPath t.chip.path) ∧
      ((∀ e ∈ s.chip.path.queue, e.allStruck = false) → lastHolding a.toNat s.chip.path.queue = 0 →
        t.chip = s.chip)

/-- R5 and R18: a processor's byte write in the control area is not taken, and BYTE_WRITE_IGNORED is recorded
where the control unit takes writes; an engine's write there is not taken, and STRAY_WRITE is recorded. Both
strike the queue as any write does (for an engine's that is assumption 13), before the record is formed
(assumption 12). -/
def Obligations.WritesNotTakenAreRecorded : Prop :=
  ∀ (o : BitVec 13) (d : Word) (s : State), s.busFree →
    let c := s.struckAt o.toNat
    let taken := o.toNat ≤ 4 ∨ 25 ≤ o.toNat ∧ o.toNat ≤ 28 ∨ 32 ≤ o.toNat ∧ o.toNat < 60 ∨
      64 ≤ o.toNat ∧ o.toNat < 120 ∨ 128 ≤ o.toNat ∧ o.toNat < s.chip.ctl.unit.eventWord
    (∀ high, ∃ t, exec (.byteWrite o high d) s = .next t ∧
      s.wordWritten t (s.chip.controlAddr o.toNat) (if high then 2 else 1) d ∧ s.writeKept t ∧
      t.chip.ctl = c.ctl ∧
      c.quiet t.chip (if taken then [.plain .control 1 0 0 (wordNat o.toNat)] else [])) ∧
    ∀ m be, m ≠ .processor → be ≠ 0 → ∃ t, exec (.strayWrite m o be d) s = .next t ∧
      s.wordWritten t (s.chip.controlAddr o.toNat) be d ∧ s.writeKept t ∧ t.chip.ctl = c.ctl ∧
      t.chip = { c.over t.chip with frm := t.chip.frm } ∧ (∀ e, t.chip.held e = s.chip.held e) ∧
      c.only t.chip [.plain .control 2 0 (octetPair (masterCode m) 0) (wordNat o.toNat)]

/-- R38: an engine's write in its context's capture window, in plain memory, stores the octets written; one
outside the window, or with no buffer address known, stores none; and a full-word write of word 3 of the
context's own descriptor, held by no slot, stores the received length. That the window is taken modulo
1048576 is assumption 14. -/
def Obligations.EngineWritesAreCaptured : Prop :=
  ∀ (e : Engine) (a : BusAddr) (be : BitVec 2) (d : Word) (s : State), s.busFree → be ≠ 0 →
    ((s.chip.ctx e).buffer = none → s.chip.classify a.toNat = .plain →
      ∃ t, exec (.headerCapture e a be d) s = .next t ∧ s.wordWritten t a be d ∧ s.writeKept t ∧
        t.chip = strikeAt a.toNat s.chip) ∧
    ∀ b, (s.chip.ctx e).buffer = some b →
      let k := (a.toNat + 1048576 - b) % 1048576
      let last := match e with
        | .coax => 3
        | .pair => 10
      (s.chip.classify a.toNat = .plain →
        ∃ t, exec (.headerCapture e a be d) s = .next t ∧ s.wordWritten t a be d ∧ s.writeKept t ∧
          t.chip = { strikeAt a.toNat s.chip with frm := t.chip.frm } ∧
          (∀ r, t.chip.held r = s.chip.held r) ∧ (∀ r, r ≠ e → t.chip.ctx r = s.chip.ctx r) ∧
          (last < k → t.chip.ctx e = s.chip.ctx e) ∧
          t.chip.ctx e = { s.chip.ctx e with octets := (t.chip.ctx e).octets } ∧
          ∀ j, k ≤ last → tget none (t.chip.ctx e).octets j =
            if j = 2 * k ∧ be.getLsbD 1 = true then some (hiOctet d)
            else if j = 2 * k + 1 ∧ be.getLsbD 0 = true then some (loOctet d)
            else tget none (s.chip.ctx e).octets j) ∧
      ∀ off, s.chip.classify a.toNat = .receive e off → off % 8 = 3 →
        (s.chip.ctx e).index = some (off / 8) → be = 3 → s.chip.slotsAt e a.toNat = [] →
        ∃ t, exec (.headerCapture e a be d) s = .next t ∧ s.wordWritten t a be d ∧ s.writeKept t ∧
          t.chip = { strikeAt a.toNat s.chip with frm := t.chip.frm } ∧
          (∀ r, t.chip.held r = s.chip.held r) ∧ (∀ r, r ≠ e → t.chip.ctx r = s.chip.ctx r) ∧
          t.chip.ctx e = { s.chip.ctx e with octets := (t.chip.ctx e).octets, len := some d }

/-- R39 to R41: a completion of a descriptor that no slot holds. In PASS and LOADING it passes as written, and
its engine's context, if it names the descriptor, is emptied. In RUN, with a slot free, it reaches memory
with owner HELD_BY_PART and takes the slot with what the context holds of it: the address parts, the length
and the captured octets. A completion that is itself a write in the capture window is left out of the last
(there its own octets are captured first, assumption 38). -/
def Obligations.CompletionsAreTaken : Prop :=
  ∀ (e : Engine) (a : BusAddr) (d : Word) (off : Nat) (s : State), s.busFree →
    s.chip.classify a.toNat = .receive e off → off % 8 = 0 → ownerField d = 1 →
    s.chip.slotsAt e a.toNat = [] →
    (s.chip.ctl.mode ≠ .run →
      ∃ t, exec (.receiveCompletion e a d) s = .next t ∧ s.wordWritten t a 3 d ∧ s.writeKept t ∧
        t.chip = { strikeAt a.toNat s.chip with frm := t.chip.frm } ∧
        (∀ r, t.chip.held r = s.chip.held r) ∧ (∀ r, r ≠ e → t.chip.ctx r = s.chip.ctx r) ∧
        ((s.chip.ctx e).index = some (off / 8) → t.chip.ctx e = Ctx.blank)) ∧
    (s.chip.ctl.mode = .run → (s.chip.held e).length < 4 → s.chip.namesOk → s.chip.noReactions →
      let x := s.chip.ctx e
      let inWindow := fun b => (a.toNat + 1048576 - b) % 1048576 ≤ (match e with | .coax => 3 | .pair => 10)
      ∃ t v, exec (.receiveCompletion e a d) s = .next t ∧
        s.wordWritten t a 3 (wordNat (2 * 16384 + d.toNat % 16384)) ∧ s.writeKept t ∧
        (t.chip.held e).map (·.id) = (s.chip.held e).map (·.id) ++ [v.id] ∧ v ∈ t.chip.held e ∧
        (∀ r, r ≠ e → t.chip.held r = s.chip.held r) ∧ (∀ r, r ≠ e → t.chip.ctx r = s.chip.ctx r) ∧
        v.index = off / 8 ∧ v.word0 = a.toNat ∧ v.saved = wordNat (d.toNat % 16384) ∧
        v.phase = .heldWaiting ∧
        (x.index = some (off / 8) → t.chip.ctx e = Ctx.blank) ∧
        (x.index ≠ some (off / 8) → v.lo = none ∧ v.hi = none ∧ v.len = none ∧ v.octets = []) ∧
        (x.index = some (off / 8) → v.lo = x.lo ∧ v.hi = x.hi ∧ v.len = x.len ∧
          ((∀ b, x.buffer = some b → ¬ inWindow b) → v.octets = x.octets)) ∧
        v.fixed =
          match e with
          | .coax =>
            if s.chip.ctl.unit.nt ≤ bitsOf d 12 2 then some { code := 10, detail := 128 + coaxError d }
            else if 6 ≤ coaxError d then some { code := 10, detail := coaxError d }
            else if (s.chip.trunk (bitsOf d 12 2)).state.cut = true then some { code := 14, detail := 1 }
            else none
          | .pair => if pairError d = 4 then some { code := 10, detail := 4 } else none)

/-- R40, R97, R98, R106 to R108 and R116, where no reaction is in force: stage one of a completion taken in
RUN. A coax completion scores its trunk when that is present and connected; no other trunk's record
changes, and a pair completion changes none. -/
def Obligations.StageOneScoresTheTrunk : Prop :=
  ∀ (e : Engine) (a : BusAddr) (d : Word) (off : Nat) (s : State), s.busFree →
    s.chip.classify a.toNat = .receive e off → off % 8 = 0 → ownerField d = 1 →
    s.chip.slotsAt e a.toNat = [] → s.chip.ctl.mode = .run → (s.chip.held e).length < 4 →
    s.chip.noReactions →
    ∃ t, exec (.receiveCompletion e a d) s = .next t ∧ t.chip.hlth.decayCount = s.chip.hlth.decayCount ∧
      ∀ k, t.chip.trunk k =
        if e = .coax ∧ k = bitsOf d 12 2 ∧ k < s.chip.ctl.unit.nt ∧
            (s.chip.trunk k).state.connected = true ∧ coaxError d < 6 then
          (s.chip.trunk k).scoredBy s.chip.ctl.health (coaxError d)
        else s.chip.trunk k

/-- R46 and R47: a write by any master to a descriptor that one slot holds, no completion, frees the slot,
withdraws its entries, and records VERDICT_DISCARDED with the slot's phase; the write reaches memory as the
master made it and the other slots keep their order. The record's words are stated where the write does not
fall on them, since it would then strike them (assumption 12). A cancellation by a completion is left out. -/
def Obligations.WritesCancelHeldFrames : Prop :=
  ∀ (m : Master) (a : BusAddr) (be : BitVec 2) (d : Word) (e : Engine) (off : Nat) (v : Slot) (s : State),
    s.busFree → be ≠ 0 → s.chip.classify a.toNat = .receive e off → s.chip.slotsAt e a.toNat = [v] →
    (masterEngine m ≠ some e ∨ be ≠ 3 ∨ off % 8 ≠ 0 ∨ ownerField d ≠ 1) →
    let done := fun (t : State) => s.wordWritten t a be d ∧ s.writeKept t ∧
      t.chip.ctl = (strikeAt a.toNat s.chip).ctl ∧ t.chip.stn = s.chip.stn ∧ t.chip.hlth = s.chip.hlth ∧
      t.chip.prt = s.chip.prt ∧ t.chip.rct = s.chip.rct ∧ t.chip.cab = s.chip.cab ∧
      (t.chip.held e).map (·.id) = ((s.chip.held e).map (·.id)).filter (· ≠ v.id) ∧
      (∀ r, r ≠ e → t.chip.held r = s.chip.held r) ∧
      (∀ x ∈ t.chip.path.queue ++ t.chip.path.waitFrame, x.purpose.ofSlot e v.id = false) ∧
      t.chip.evt.overflow = (if maskHas s.chip.ctl.recordMask .path = true ∧ s.chip.ringRoom = 0 then
        maskAdd s.chip.evt.overflow .path else s.chip.evt.overflow) ∧
      (maskHas s.chip.ctl.recordMask .path = true → 1 ≤ s.chip.ringRoom →
        t.chip.evt.sequence = (s.chip.evt.sequence + 1) % 256 ∧
        ((∀ k < 4, (s.chip.recordAddr + k) % 1048576 ≠ a.toNat) →
          .deposit s.chip.recordAddr (unstruck [s.chip.recordHead .path 1, wordNat v.index,
            octetPair (match e with | .coax => 1 | .pair => 2)
              (match v.phase with | .heldWaiting => 1 | .releasing => 2), 0]) ∈ t.chip.worksOf .event))
    (v.phase = .heldWaiting → ∃ t, exec (.cancellingWriteHeld m a be d) s = .next t ∧ done t) ∧
    (v.phase = .releasing → ∃ t, exec (.cancellingWriteReleasing m a be d) s = .next t ∧ done t)

/-- R93, R94 and R6: a processor's hand-over write of a transmit descriptor's word 0. In RUN the bits of cut and
absent trunks are cleared in its mask and SKIPPED is cleared; with no trunk left it reaches memory with owner
PROCESSOR and SKIPPED set, and GUARD_SKIPPED is recorded. Outside RUN it passes as written. -/
def Obligations.GuardStripsTheMask : Prop :=
  ∀ (a : BusAddr) (d : Word) (off : Nat) (s : State), s.busFree →
    s.chip.classify a.toNat = .transmit off → off % 8 = 0 → ownerField d ≠ 1 →
    let stays := fun k => bitOf d (8 + k) && decide (k < s.chip.ctl.unit.nt) && !(s.chip.trunk k).state.cut
    let left := stays 0 || stays 1 || stays 2 || stays 3
    (s.chip.ctl.mode ≠ .run → ∃ t, exec (.transmitGuard a d) s = .next t ∧ s.wordWritten t a 3 d ∧
      s.writeKept t ∧ t.chip = strikeAt a.toNat s.chip) ∧
    (s.chip.ctl.mode = .run → ∃ (t : State) (w : Word), exec (.transmitGuard a d) s = .next t ∧
      s.wordWritten t a 3 w ∧ s.writeKept t ∧
      (∀ i < 16, bitOf w i =
        if i = 0 then !left
        else if 8 ≤ i ∧ i < 12 then stays (i - 8)
        else if i = 14 then (if left then bitOf d 14 else true)
        else if i = 15 then (if left then bitOf d 15 else false)
        else bitOf d i) ∧
      t.chip.ctl = (strikeAt a.toNat s.chip).ctl ∧
      (left = true → t.chip = strikeAt a.toNat s.chip) ∧
      (left = false → (strikeAt a.toNat s.chip).quiet t.chip
        [.plain .path 2 (wordNat (off / 8)) (octetPair (bitsOf d 8 4) 0) 0]))

/-! ### Printer rings -/

/-- R144 and R146, in every mode: a completion of a descriptor that holds no entry records RING_ORDER and changes
nothing else; a print engine's full-word write of word 4 sets the printed count kept for the descriptor. A
completion with error NONE, where the descriptor's entry is of the printer's claimant, PRINTING and not
abandoned, frees the entry, adds its length to the octets printed, and lets C advance over the descriptor
when it stands at C and no other is completed. -/
def Obligations.PrinterRingWritesAreSeen : Prop :=
  ∀ (a : BusAddr) (d : Word) (p off : Nat) (s : State), s.busFree →
    s.chip.classify a.toNat = .printer p off →
    let c := strikeAt a.toNat s.chip
    (off % 8 = 0 → ownerField d = 1 → (s.chip.desc p (off / 8)).entry = none →
      ∃ t, exec (.printerCompletion a d) s = .next t ∧ s.wordWritten t a 3 d ∧ s.writeKept t ∧
        t.chip.ctl = c.ctl ∧
        c.quiet t.chip [.plain .path 3 (wordNat p) (octetPair (off / 8) 0) d]) ∧
    (off % 8 = 4 →
      ∃ t, exec (.printedCountWrite a d) s = .next t ∧ s.wordWritten t a 3 d ∧ s.writeKept t ∧
        t.chip = c.withPrt { s.chip.prt with printers := t.chip.prt.printers } ∧
        (∀ q, q ≠ p → t.chip.printer q = s.chip.printer q) ∧
        t.chip.printer p = { s.chip.printer p with descs := (t.chip.printer p).descs } ∧
        ∀ i, t.chip.desc p i =
          if i = off / 8 then { s.chip.desc p i with printed := d } else s.chip.desc p i) ∧
    ∀ n e, off % 8 = 0 → ownerField d = 1 → errorField d = 0 →
      (s.chip.desc p (off / 8)).entry = some n → s.chip.spoolEntry n = some e →
      (s.chip.printer p).claim = some e.job → (s.chip.job e.job).state = .printing →
      (s.chip.job e.job).reason = none →
      ∃ t, exec (.printerCompletion a d) s = .next t ∧ s.wordWritten t a 3 d ∧ s.writeKept t ∧
        t.chip.ctl = c.ctl ∧ t.chip.evt = c.evt ∧ t.chip.stn = s.chip.stn ∧
        t.chip.hlth = s.chip.hlth ∧ t.chip.frm = s.chip.frm ∧ t.chip.rct = s.chip.rct ∧
        t.chip.spoolEntry n = none ∧
        (∀ j, t.chip.job j =
          if j = e.job then { s.chip.job j with
            spool := (s.chip.job j).spool.filter (· ≠ n)
            printed := min 65535 ((s.chip.job j).printed + e.len) }
          else s.chip.job j) ∧
        (∀ q, q ≠ p → t.chip.printer q = s.chip.printer q) ∧
        (t.chip.printer p).state = (s.chip.printer p).state ∧
        (t.chip.printer p).claim = some e.job ∧ (t.chip.printer p).queue = (s.chip.printer p).queue ∧
        ((∀ i, (s.chip.desc p i).completed = false) →
          (t.chip.printer p).done =
            if off / 8 = (s.chip.printer p).done.toNat % s.chip.ringDescs p then (s.chip.printer p).done + 1
            else (s.chip.printer p).done)

/-- R147 and R156, for errors PAPER_OUT, OFFLINE and FAULT (codes 5 to 15 read as FAULT), where part of the entry
is unprinted, its job is the printer's claimant, PRINTING and not abandoned, the pair is not FAILOVER and no
reaction is in force: the entry rises by the printed words and returns, and the printer is STALLED. That
the risen address is taken modulo 1048576 is assumption 14. Error FLUSHED and a fully printed entry are
left out; the reaction unit's lamps follow R168 and are not said here. -/
def Obligations.FailedEntriesReturnAndStall : Prop :=
  ∀ (a : BusAddr) (d : Word) (p off n : Nat) (e : SpoolEntry) (s : State), s.busFree →
    s.chip.classify a.toNat = .printer p off → off % 8 = 0 → ownerField d = 1 →
    errorField d ≠ 0 → errorField d ≠ 4 →
    (s.chip.desc p (off / 8)).entry = some n → s.chip.spoolEntry n = some e →
    (s.chip.desc p (off / 8)).printed.toNat < e.len →
    (s.chip.printer p).claim = some e.job → (s.chip.job e.job).state = .printing →
    (s.chip.job e.job).reason = none → s.chip.pairModeOf p ≠ .failover → s.chip.noReactions →
    let k := (s.chip.desc p (off / 8)).printed.toNat / 2
    ∃ t, exec (.printerCompletion a d) s = .next t ∧ s.wordWritten t a 3 d ∧ s.writeKept t ∧
      t.chip.ctl = (strikeAt a.toNat s.chip).ctl ∧ t.chip.stn = s.chip.stn ∧ t.chip.hlth = s.chip.hlth ∧
      t.chip.frm = s.chip.frm ∧
      (strikeAt a.toNat s.chip).only t.chip (printerEvents p (s.chip.printer p).state .stalled 1) ∧
      (t.chip.printer p).state = .stalled ∧ (t.chip.printer p).claim = some e.job ∧
      (∀ q, q ≠ p → t.chip.printer q = s.chip.printer q) ∧
      (∀ i, t.chip.spoolEntry i =
        if i = n then some { e with
          addr := (e.addr + k) % 1048576
          len := e.len - 2 * k
          inRing := false }
        else s.chip.spoolEntry i) ∧
      (t.chip.job e.job).printed = min 65535 ((s.chip.job e.job).printed + 2 * k) ∧
      (∀ j, j ≠ e.job → t.chip.job j = s.chip.job j) ∧ n ∈ (t.chip.job e.job).spool ∧
      ((∀ i ∈ (s.chip.job e.job).spool, i ≠ n → ∀ v, s.chip.spoolEntry i = some v →
          v.inRing = false ∧ v.ringIndex = none) → (t.chip.job e.job).spool.head? = some n)

/-! ### The control area -/

/-- R16 to R18: a write of an argument word, of a record's word that is not its last, or in LOADING of its last
word too, replaces that word's staging copy and nothing else; a write of a word the control unit does not
take changes nothing in it. -/
def Obligations.StagingWritesReplaceTheCopy : Prop :=
  ∀ (o : BitVec 13) (d : Word) (s : State), s.busFree →
    let copied := fun (key : Nat) => ∃ t, exec (.stagingWrite o d) s = .next t ∧ s.wrote t o.toNat d ∧
      t.chip = (s.struckAt o.toNat).withCtl
        { (s.struckAt o.toNat).ctl with staging := t.chip.ctl.staging } ∧
      ∀ k, t.chip.staged k = if k = key then d else s.chip.staged k
    (1 ≤ o.toNat → o.toNat ≤ 4 → copied o.toNat) ∧
    (∀ id i, recordAt s.chip.ctl.unit o.toNat = some (id, i) →
      i + 1 ≠ recordLength id ∨ s.chip.ctl.mode = .loading → copied (stagingKey id i)) ∧
    (4 < o.toNat → (o.toNat < 25 ∨ 28 < o.toNat) → recordAt s.chip.ctl.unit o.toNat = none →
      ∃ t, exec (.stagingWrite o d) s = .next t ∧ s.wrote t o.toNat d ∧ t.chip = s.struckAt o.toNat)

/-- R19, R20, R23, R59, R124, R155 and R180: a unit record commit. In RUN it is refused with WRONG_MODE, and in
PASS with JOB_OPEN where the new U's entry has an open job (that the mode is tested first is the model's
choice, assumption 32). Else, here with no job in use and no printer queue or ring in use, its clamped
fields are in force; the event indices and counts start again; trunks, printers and entry U follow. R78's
pass over the proxies, a commit in LOADING and one with jobs or rings in use are left out. -/
def Obligations.UnitRecordCommits : Prop :=
  ∀ (d : Word) (s : State), s.busFree →
    let c := s.stagedLast .unit d
    let w := fun k => (c.staged k).toNat
    let u := min 254 (w 36)
    (s.chip.ctl.mode = .run → ∃ t, exec (.unitRecordCommit d) s = .next t ∧ s.wrote t 47 d ∧
      t.chip.ctl = c.ctl ∧ c.quiet t.chip [configRefused 3 32]) ∧
    (s.chip.ctl.mode = .pass → u ≠ 0 → (s.chip.station u).openJob.isSome = true →
      ∃ t, exec (.unitRecordCommit d) s = .next t ∧ s.wrote t 47 d ∧
        t.chip.ctl = c.ctl ∧ c.quiet t.chip [configRefused 4 32]) ∧
    (s.chip.ctl.mode = .pass → (∀ j, (s.chip.job j).state = .free) →
      (∀ n, (s.chip.station n).openJob = none) →
      (∀ p, (s.chip.printer p).claim = none ∧ (s.chip.printer p).queue = [] ∧
        ∀ i, (s.chip.desc p i).entry = none) →
      ∃ t, exec (.unitRecordCommit d) s = .next t ∧ s.wrote t 47 d ∧
        t.chip.ctl = { c.ctl with
          unitCommitted := true
          unit :=
            { nt := max 1 (min 4 (w 32)), np := min 8 (w 33), nr := min 16 (w 34), c := min 3 (w 35), u := u,
              pLo := max 1 (min 254 (w 37)), pHi := max 1 (min 254 (w 38)),
              aliasBase := BitVec.ofNat 48 (w 39 * 4294967296 + w 40 * 65536 + w 41 / 256 * 256),
              linkType := c.staged 42 } } ∧
        t.chip.frm = c.frm ∧ t.chip.evt.shown = 0 ∧ t.chip.evt.consumer = 0 ∧ t.chip.evt.unread = [] ∧
        t.chip.evt.notice = false ∧
        (∀ k, t.chip.trunk k =
          if k < 4 ∧ t.chip.ctl.unit.nt ≤ k ∧ k < s.chip.ctl.unit.nt then Trunk.absent
          else if k < 4 ∧ s.chip.ctl.unit.nt ≤ k ∧ k < t.chip.ctl.unit.nt then Trunk.fresh
          else s.chip.trunk k) ∧
        (∀ p, t.chip.printer p =
          if p < 8 ∧ t.chip.ctl.unit.np ≤ p ∧ p < s.chip.ctl.unit.np then Printer.blank
          else if p < 8 ∧ s.chip.ctl.unit.np ≤ p ∧ p < t.chip.ctl.unit.np then
            { Printer.blank with state := if (s.chip.printerRec p).enabled then .ready else .disabled }
          else s.chip.printer p) ∧
        (u ≠ 0 → (t.chip.station u).kind = .unit) ∧
        ∀ n, n ≠ 0 → n < 255 → (t.chip.station n).kind = .unit → n = u)

/-- R19, R20, R2 and R37: a ring record commit. In RUN it is refused with WRONG_MODE (that the mode is tested
before the region is assumption 32); a ring that runs past memory's end or overlaps the control area is
refused with REGION; else, in PASS, its region is in force and its engine's context is emptied. That the
transmit ring's engine is the coax engine is the model's choice (assumption 33). -/
def Obligations.RingRecordCommits : Prop :=
  ∀ (k : Nat) (d : Word) (s : State), k < 3 → s.busFree →
    let c := s.stagedLast (.ring k) d
    let w := fun i => (c.staged (48 + 4 * k + i)).toNat
    let r : RingRec := { base := w 1 % 16 * 65536 + w 0, e := max 3 (min 8 (w 2)) }
    let bad := 1048576 < r.base + 8 * 2 ^ r.e ∨
      (r.base < s.chip.base + 8192 ∧ s.chip.base < r.base + 8 * 2 ^ r.e)
    let engine := if k = 1 then Engine.pair else Engine.coax
    (s.chip.ctl.mode = .run → ∃ t, exec (.ringRecordCommit k d) s = .next t ∧ s.wrote t (51 + 4 * k) d ∧
      t.chip.ctl = c.ctl ∧ c.quiet t.chip [configRefused 3 (48 + 4 * k)]) ∧
    (s.chip.ctl.mode = .pass → bad →
      ∃ t, exec (.ringRecordCommit k d) s = .next t ∧ s.wrote t (51 + 4 * k) d ∧
        t.chip.ctl = c.ctl ∧ c.quiet t.chip [configRefused 2 (48 + 4 * k)]) ∧
    (s.chip.ctl.mode = .pass → ¬ bad →
      ∃ t, exec (.ringRecordCommit k d) s = .next t ∧ s.wrote t (51 + 4 * k) d ∧
        t.chip = { c with ctl := t.chip.ctl, frm := t.chip.frm } ∧
        t.chip.ctl = { c.ctl with
          coaxRing := if k = 0 then some r else c.ctl.coaxRing
          pairRing := if k = 1 then some r else c.ctl.pairRing
          transmitRing := if k = 2 then some r else c.ctl.transmitRing } ∧
        (∀ e, t.chip.held e = s.chip.held e) ∧
        ∀ e, t.chip.ctx e = if e = engine then Ctx.blank else s.chip.ctx e)

/-- R21, R22, R51, R111, R112, R134, R163 and R171: the health, print, aging, timer and reaction records carry
their clamped fields. With the gate closed each becomes pending. With it open the health record is the
working one at once in PASS and the awaiting one in RUN, and the others are in force at once. A reaction
record with an undefined code is refused with UNKNOWN_CODE (that its trigger state is tested whatever its
trigger kind is assumption 31). Of the objects of printer and line triggers and actions, those above 3 are
left out. -/
def Obligations.RecordCommitsTakeTheirFields : Prop :=
  (∀ (d : Word) (s : State), s.busFree → s.chip.ctl.mode ≠ .loading →
    let c := s.stagedLast .health d
    let w := fun k => (c.staged (64 + k)).toNat
    let hi := fun k => w k / 256
    let lo := fun k => w k % 256
    let h : HealthRec :=
      { bodyCrc := hi 0, short := lo 0, long := hi 1, code := lo 1, reflection := hi 2, header := lo 2,
        malformed := hi 3, goodCredit := lo 3, decayFactor := hi 4, stationStep := lo 4,
        decayInterval := max 1 (w 5), tw := min (max 1 (w 6)) (max 1 (w 7)), ti := max 1 (w 7),
        holdBase := max 1 (w 8), holdMax := max 1 (w 9), trial := max 1 (w 10), clearInterval := max 1 (w 11),
        stationLong := hi 12, stationMismatch := lo 12, stationConflict := hi 13,
        stationLimit := max 1 (lo 13), maxStrikes := max 1 (min 15 (lo 15)) }
    ∃ t, exec (.healthRecordCommit d) s = .next t ∧ s.wrote t 79 d ∧
      t.chip = c.withCtl
        (if s.chip.ctl.gateClosed then { c.ctl with pendingHealth := some h }
         else if s.chip.ctl.mode = .run then { c.ctl with awaitingHealth := some h }
         else { c.ctl with health := h })) ∧
  ∀ (d : Word) (s : State), s.busFree → s.chip.ctl.mode ≠ .loading →
    (let c := s.stagedLast .print d
      let w := fun k => (c.staged (80 + k)).toNat
      let v : PrintRec := { idleLimit := w 0, grace := max 1 (w 1), waitCap := max 1 (min 16 (w 7)) }
      ∃ t, exec (.printRecordCommit d) s = .next t ∧ s.wrote t 87 d ∧
        t.chip = c.withCtl
          (if s.chip.ctl.gateClosed then { c.ctl with pendingPrint := some v } else { c.ctl with print := v })) ∧
    (let c := s.stagedLast .aging d
      let w := fun k => (c.staged (112 + k)).toNat
      let v : AgingRec :=
        { silence := max 1 (w 0), removal := w 1, proxyFree := w 2, reclaimMin := w 3,
          flapWindow := min 600 (w 7) }
      ∃ t, exec (.agingRecordCommit d) s = .next t ∧ s.wrote t 119 d ∧
        t.chip = c.withCtl
          (if s.chip.ctl.gateClosed then { c.ctl with pendingAging := some v } else { c.ctl with aging := v })) ∧
    (∀ k < 4, let c := s.stagedLast (.timer k) d
      let v : TimerRec :=
        { period := (c.staged (104 + 2 * k)).toNat, repeats := bitOf (c.staged (105 + 2 * k)) 0 }
      ∃ t, exec (.timerRecordCommit k d) s = .next t ∧ s.wrote t (105 + 2 * k) d ∧
        (s.chip.ctl.gateClosed = true →
          t.chip = c.withCtl { c.ctl with pendingTimers := t.chip.ctl.pendingTimers } ∧
          ∀ i, tget none t.chip.ctl.pendingTimers i =
            if i = k then some v else tget none s.chip.ctl.pendingTimers i) ∧
        (s.chip.ctl.gateClosed = false →
          t.chip = c.withRct { c.rct with timers := t.chip.rct.timers } ∧
          ∀ i, t.chip.timer i =
            if i ≠ k then s.chip.timer i
            else if (s.chip.timer k).running = false then { s.chip.timer k with record := v }
            else if v.period = 0 then { s.chip.timer k with record := v, running := false, count := 0 }
            else { s.chip.timer k with record := v, count := v.period })) ∧
    ∀ r < s.chip.ctl.unit.nr, r < 16 → s.chip.ctl.unit.np ≤ 8 →
      let c := s.stagedLast (.reaction r) d
      let w := fun i => (c.staged (2048 + 4 * r + i)).toNat
      let first := 128 + 16 * s.chip.ctl.unit.np + 4 * r
      let known := w 0 / 256 ≤ 10 ∧ w 1 ≤ 5 ∧ w 2 / 256 ≤ 9
      (¬ known → ∃ t, exec (.reactionRecordCommit r d) s = .next t ∧ s.wrote t (first + 3) d ∧
        t.chip.ctl = c.ctl ∧ c.quiet t.chip [configRefused 1 first]) ∧
      (known → ∃ t v, exec (.reactionRecordCommit r d) s = .next t ∧ s.wrote t (first + 3) d ∧
        v.trigger.code = w 0 / 256 ∧ v.triggerState.code = w 1 ∧ actionKindOf (w 2 / 256) = some v.action ∧
        v.enabled = bitOf (c.staged (2048 + 4 * r + 3)) 0 ∧ v.once = bitOf (c.staged (2048 + 4 * r + 3)) 1 ∧
        (w 0 % 256 < 4 → v.triggerObj = w 0 % 256) ∧ (w 2 % 256 < 4 → v.actionObj = w 2 % 256) ∧
        (v.trigger = .trunkEnters ∨ v.trigger = .timer → v.triggerObj = min 3 (w 0 % 256)) ∧
        (v.action = .note → v.actionObj = w 2 % 256) ∧
        (s.chip.ctl.gateClosed = true →
          t.chip = c.withCtl { c.ctl with pendingReactions := t.chip.ctl.pendingReactions } ∧
          ∀ i, tget none t.chip.ctl.pendingReactions i =
            if i = r then some v else tget none s.chip.ctl.pendingReactions i) ∧
        (s.chip.ctl.gateClosed = false →
          t.chip = c.withRct { c.rct with reactions := t.chip.rct.reactions } ∧
          ∀ i, t.chip.reaction i = if i = r then v else s.chip.reaction i))

/-- R167 and R168: a line record commit with the gate open (a closed gate is left out). An undefined code is
refused with UNKNOWN_CODE; else the line takes its record, its kept level only on becoming OUTPUT (that one
which leaves OUTPUT keeps its kept level is assumption 40), its sampled level only on becoming INPUT or
PRINTER_READY, and every line is driven by R168. -/
def Obligations.LineRecordCommits : Prop :=
  ∀ (l : Nat) (d : Word) (pins : Octet) (s : State), l < 8 → s.busFree → s.chip.ctl.mode ≠ .loading →
    s.chip.ctl.gateClosed = false →
    let c := (s.setPins pins).stagedLast (.line l) d
    let w0 := c.staged (88 + 2 * l)
    let w1 := c.staged (89 + 2 * l)
    let known := bitsOf w0 0 4 ≤ 6 ∧ bitsOf w1 1 2 ≤ 2
    (¬ known → ∃ t, exec (.lineRecordCommit l d pins) s = .next t ∧ s.wrote t (89 + 2 * l) d ∧
      t.chip.ctl = c.ctl ∧ c.quiet t.chip [configRefused 1 (88 + 2 * l)]) ∧
    (known → ∃ t, exec (.lineRecordCommit l d pins) s = .next t ∧ s.wrote t (89 + 2 * l) d ∧
      t.chip = c.withRct { c.rct with lines := t.chip.rct.lines, driven := t.chip.rct.driven } ∧
      t.chip.linesDriven ∧ (∀ i, i ≠ l → t.chip.line i = s.chip.line i) ∧
      lineFnOf (bitsOf w0 0 4) = some (t.chip.line l).record.fn ∧
      levelOf (bitsOf w1 1 2) = some (t.chip.line l).record.rest ∧
      (t.chip.line l).record.activeLow = bitOf w1 0 ∧
      (t.chip.line l).record.obj =
        (if (t.chip.line l).record.fn = .relay ∨ (t.chip.line l).record.fn = .trunkLamp then
          min 3 (bitsOf w0 8 3) else bitsOf w0 8 3) ∧
      (t.chip.line l).kept =
        (if (t.chip.line l).record.fn = .output ∧ (s.chip.line l).record.fn ≠ .output then
          (t.chip.line l).record.rest else (s.chip.line l).kept) ∧
      (t.chip.line l).sampled =
        (if (t.chip.line l).record.fn.samples = true ∧ (t.chip.line l).record.fn ≠ (s.chip.line l).record.fn
          then t.chip.pinActive l else (s.chip.line l).sampled))

/-- R153, R154, R21 and R22: a printer record commit of a printer in force, with the gate open and every code
defined. An enabled ring that runs past memory's end or overlaps the control area is refused with REGION. In
PASS, and in RUN at the printer's boundary, it is in force at once, here for a pair that is not FAILOVER,
an empty queue and no reaction in force; in RUN away from the boundary it becomes awaiting. A closed gate,
an undefined pair mode and a printer with a wait queue at its boundary are left out. -/
def Obligations.PrinterRecordCommits : Prop :=
  ∀ (p : Nat) (d : Word) (s : State), p < 8 → p < s.chip.ctl.unit.np → s.busFree →
    s.chip.ctl.mode ≠ .loading → s.chip.ctl.gateClosed = false →
    let c := s.stagedLast (.printer p) d
    let w := fun i => (c.staged (1024 + 16 * p + i)).toNat
    let base := w 2 % 16 * 65536 + w 1
    let e := max 3 (min 6 (w 3))
    let bad := w 0 % 2 = 1 ∧ (1048576 < base + 8 * 2 ^ e ∨
      (base < s.chip.base + 8192 ∧ s.chip.base < base + 8 * 2 ^ e))
    (p % 2 = 1 ∨ w 4 ≤ 2) →
    (bad → ∃ t, exec (.printerRecordCommit p d) s = .next t ∧ s.wrote t (143 + 16 * p) d ∧
      t.chip.ctl = c.ctl ∧ c.quiet t.chip [configRefused 2 (128 + 16 * p)]) ∧
    (¬ bad → ∃ r : PrinterRec, r.enabled = decide (w 0 % 2 = 1) ∧ r.base = base ∧ r.e = e ∧
      r.swap = decide (w 5 % 2 = 1) ∧ r.pairMode.code = (if p % 2 = 1 then 0 else w 4) ∧
      (s.chip.ctl.mode = .run → s.chip.atBoundary p = false →
        ∃ t, exec (.printerRecordCommit p d) s = .next t ∧ s.wrote t (143 + 16 * p) d ∧
          t.chip = c.withCtl { c.ctl with awaitingPrinters := t.chip.ctl.awaitingPrinters } ∧
          ∀ q, t.chip.awaitingPrinter q = if q = p then some r else s.chip.awaitingPrinter q) ∧
      ((s.chip.printer p).claim = none → (s.chip.printer p).queue = [] →
        (∀ i, (s.chip.desc p i).entry = none) → s.chip.pairModeOf p ≠ .failover → s.chip.noReactions →
        (s.chip.ctl.mode = .run → s.chip.atBoundary p = true) →
        ∃ t, exec (.printerRecordCommit p d) s = .next t ∧ s.wrote t (143 + 16 * p) d ∧
          c.only t.chip (printerEvents p (s.chip.printer p).state (t.chip.printer p).state 5) ∧
          t.chip = { c.over t.chip with
            ctl := t.chip.ctl
            prt := { c.prt with printers := t.chip.prt.printers }
            rct := { c.rct with driven := t.chip.rct.driven } } ∧
          t.chip.ctl = { c.ctl with
            printers := t.chip.ctl.printers
            awaitingPrinters := t.chip.ctl.awaitingPrinters } ∧
          (∀ q, t.chip.printerRec q = if q = p then r else s.chip.printerRec q) ∧
          (∀ q, t.chip.awaitingPrinter q =
            if q = p ∧ s.chip.ctl.mode = .run then none else s.chip.awaitingPrinter q) ∧
          ∀ q, t.chip.printer q =
            if q = p then { Printer.blank with
              state := if r.enabled = false then .disabled
                else if (s.chip.printer p).state = .disabled then .ready
                else (s.chip.printer p).state }
            else s.chip.printer q))

/-- R16, R22 and R179: closing the gate changes the gate alone. Opening it, here with no line, timer, printer or
reaction commit pending, lets the pending print and aging commits take effect and the pending health commit
take effect outside RUN or become awaiting in RUN. The masks, and NOTICE with the notice mask, follow the
processor's writes at once. -/
def Obligations.GateAndMasksAreTakenAtOnce : Prop :=
  ∀ (d : Word) (pins : Octet) (s : State), s.busFree →
    let c := (s.setPins pins).struckAt 26
    (d ≠ 0 → ∃ t, exec (.updateGate d pins) s = .next t ∧ s.wrote t 26 d ∧
      t.chip = c.withCtl { c.ctl with gateClosed := true }) ∧
    (d = 0 → c.ctl.pendingLines = [] → c.ctl.pendingTimers = [] → c.ctl.pendingPrinters = [] →
      c.ctl.pendingReactions = [] →
      ∃ t, exec (.updateGate d pins) s = .next t ∧ s.wrote t 26 d ∧
        t.chip = c.withCtl { c.ctl with
          gateClosed := false
          pendingHealth := none
          pendingPrint := none
          pendingAging := none
          print := s.chip.ctl.pendingPrint.getD s.chip.ctl.print
          aging := s.chip.ctl.pendingAging.getD s.chip.ctl.aging
          health := if s.chip.ctl.mode = .run then s.chip.ctl.health
            else s.chip.ctl.pendingHealth.getD s.chip.ctl.health
          awaitingHealth := if s.chip.ctl.mode = .run ∧ s.chip.ctl.pendingHealth.isSome = true then
              s.chip.ctl.pendingHealth
            else s.chip.ctl.awaitingHealth }) ∧
    (∃ t, exec (.noticeMask d) s = .next t ∧ s.wrote t 27 d ∧
      t.chip = { s.struckAt 27 with
        ctl := { (s.struckAt 27).ctl with noticeMask := loOctet d }
        evt := { (s.struckAt 27).evt with notice := t.chip.evt.notice } } ∧
      (t.chip.evt.notice = true ↔
        ∃ k : EvClass, 0 < (s.struckAt 27).evt.unread.count k ∧ d.getLsbD k.code = true)) ∧
    ∃ t, exec (.recordMask d) s = .next t ∧ s.wrote t 28 d ∧
      t.chip = (s.struckAt 28).withCtl { (s.struckAt 28).ctl with recordMask := loOctet d }

/-- R177 to R179: a write of the consumer index consumes the records it passes, or all that are shown when it
would pass more, and NOTICE follows the counts left. When it consumed a record and the overflow set is not
empty, OVERFLOW is formed, with the producer deposit after it, and the set and lost count start again; else
nothing is formed. -/
def Obligations.ConsumerIndexConsumesRecords : Prop :=
  ∀ (d : Word) (s : State), s.busFree →
    let c := s.struckAt 25
    let r := 2 ^ (5 + s.chip.ctl.unit.c)
    let v := min d.toNat (r - 1)
    let gap := (v + r - c.evt.consumer % r) % r
    let used := min gap c.evt.unread.length
    ∃ t, exec (.eventConsumerIndex d) s = .next t ∧ s.wrote t 25 d ∧ t.chip = c.over t.chip ∧
      c.grew t.chip ∧ t.chip.ctl = c.ctl ∧ (∀ o, o ≠ .event → c.formed t.chip o []) ∧
      t.chip.evt.consumer = (if gap ≤ c.evt.unread.length then v else c.evt.shown) ∧
      t.chip.evt.unread = c.evt.unread.drop used ∧ t.chip.evt.shown = c.evt.shown ∧
      (t.chip.evt.notice = true ↔
        ∃ k : EvClass, 0 < t.chip.evt.unread.count k ∧ maskHas s.chip.ctl.noticeMask k = true) ∧
      (used = 0 ∨ c.evt.overflow = 0 → t.chip.path = c.path ∧ t.chip.evt.producer = c.evt.producer ∧
        t.chip.evt.overflow = c.evt.overflow ∧ t.chip.evt.lost = c.evt.lost) ∧
      (used ≠ 0 → c.evt.overflow ≠ 0 → t.chip.evt.overflow = 0 ∧ t.chip.evt.lost = 0 ∧
        t.chip.evt.producer = (c.evt.producer + 1) % r ∧
        c.formed t.chip .event
          [.deposit c.recordAddr
            (unstruck [c.recordHead .control 5, 0, octetPair c.evt.overflow.toNat 0, wordNat c.evt.lost]),
            .deposit (s.chip.base + 24) (unstruck [wordNat ((c.evt.producer + 1) % r)])])

/-- R175, R176 and R178, of an event handed to the event unit: nothing for a class not recorded; the class joins
the overflow set and the lost count rises where there is no room; else its record, or for an event with an
address its pair of records, is formed at the producer, then the producer deposit, and nothing else is. -/
def Obligations.EventsAreFormedOrLost : Prop :=
  ∀ (v : Event) (c : Chip),
    let places := if v.addr.isSome then 2 else 1
    let r := 2 ^ (5 + c.ctl.unit.c)
    let at' := fun k => c.base + c.ctl.unit.eventWord + 4 * k
    let d := recordEvent v c
    let p1 := (c.evt.producer + 1) % r
    let first := Work.deposit (at' c.evt.producer) (unstruck (c.recordHead v.cls v.kind :: v.body))
    (maskHas c.ctl.recordMask v.cls = false → d = c) ∧
    (maskHas c.ctl.recordMask v.cls = true → c.ringRoom < places →
      d = c.withEvt { c.evt with
        overflow := c.evt.overflow ||| BitVec.ofNat 8 (2 ^ v.cls.code)
        lost := min 65535 (c.evt.lost + 1) }) ∧
    (maskHas c.ctl.recordMask v.cls = true → places ≤ c.ringRoom →
      c.grew d ∧ d = { c with path := d.path, evt := d.evt } ∧
      d.evt = { c.evt with producer := d.evt.producer, sequence := d.evt.sequence } ∧
      (∀ o, o ≠ .event → c.formed d o []) ∧
      (v.addr = none → d.evt.producer = p1 ∧ d.evt.sequence = (c.evt.sequence + 1) % 256 ∧
        c.formed d .event [first, .deposit (c.base + 24) (unstruck [wordNat p1])]) ∧
      ∀ x, v.addr = some x → d.evt.producer = (p1 + 1) % r ∧
        d.evt.sequence = ((c.evt.sequence + 1) % 256 + 1) % 256 ∧
        c.formed d .event [first,
          .deposit (at' p1) (unstruck (wordNat (2 * 8192 + 7 * 256 + (c.evt.sequence + 1) % 256) :: addrWords x)),
          .deposit (c.base + 24) (unstruck [wordNat ((p1 + 1) % r)])])

/-! ### The commands of the command word -/

/-- R26, of every row that writes a command word, the rows UNKNOWN_COMMAND and COMMAND_REFUSED among them: with no
command in progress, a code outside the command table is refused with UNKNOWN_COMMAND (that row's effect), and a
command in a mode its row does not allow with WRONG_MODE. While a command is in progress no command word is
taken: COMMAND_REFUSED is recorded (that row's effect), no reply is formed, the command in progress stays. -/
def Obligations.CommandsAreRefused : Prop :=
  ∀ (i : Instr) (code : Nat) (tag : Octet) (s : State), commandWord i = some (code, tag) → s.busFree →
    let c := fun (t : State) => strikeAt s.chip.base { s.chip with pins := t.chip.pins }
    (s.chip.ctl.command = none → (∀ k : CommandCode, k.code ≠ code) →
      ∃ t, exec i s = .next t ∧ s.commanded t code tag ∧ (c t).refusedWith t.chip tag .unknownCommand) ∧
    (s.chip.ctl.command = none → ∀ k : CommandCode, k.code = code → k.allowed s.chip.ctl.mode = false →
      ∃ t, exec i s = .next t ∧ s.commanded t code tag ∧ (c t).refusedWith t.chip tag .wrongMode) ∧
    ((strikeAt s.chip.base s.chip).ctl.command ≠ none →
      ∃ t, exec i s = .next t ∧ s.commanded t code tag ∧ t.chip.ctl = (c t).ctl ∧
        (c t).quiet t.chip [.plain .control 4 0 (octetPair code tag.toNat) 0])

/-- R27, R28, R168 and R169. LOAD, taken in PASS, puts the part in LOADING and forms the fetches of words 26 to 119
alone, six runs of at most 16 words in address order (that a run is cut at exactly 16 words is the model's
choice, assumption 34). START, taken in PASS, is refused with NO_UNIT without the unit record committed, with
NO_RINGS without a ring record; else the part is in RUN, and, here with no printer claimed or waited for,
every line is driven by the states kept and every sampled level is taken from its pin. -/
def Obligations.LoadAndStartChangeTheMode : Prop :=
  (∀ (tag : Octet) (s : State), s.commandFree → s.chip.ctl.mode = .pass →
    let c := s.struckAt 0
    ∃ t, exec (.load tag) s = .next t ∧ s.commanded t 1 tag ∧
      t.chip = (c.over t.chip).setMode .loading ∧ c.grew t.chip ∧ c.logs t.chip [] ∧
      t.chip.ctl.command = some { tag := tag, phase := .loading 6 0 [] } ∧
      c.formed t.chip .frame [] ∧ c.formed t.chip .print [] ∧
      c.formed t.chip .control
        [.fetch (s.chip.base + 26) 16, .fetch (s.chip.base + 42) 16, .fetch (s.chip.base + 58) 16,
          .fetch (s.chip.base + 74) 16, .fetch (s.chip.base + 90) 16, .fetch (s.chip.base + 106) 14]) ∧
  ∀ (tag pins : Octet) (s : State), s.commandFree → s.chip.ctl.mode = .pass →
    let c := (s.setPins pins).struckAt 0
    let rings := s.chip.ctl.coaxRing.isSome && s.chip.ctl.pairRing.isSome && s.chip.ctl.transmitRing.isSome
    (s.chip.ctl.unitCommitted = false →
      ∃ t, exec (.start tag pins) s = .next t ∧ s.commanded t 2 tag ∧ c.refusedWith t.chip tag .noUnit) ∧
    (s.chip.ctl.unitCommitted = true → rings = false →
      ∃ t, exec (.start tag pins) s = .next t ∧ s.commanded t 2 tag ∧ c.refusedWith t.chip tag .noRings) ∧
    (s.chip.ctl.unitCommitted = true → rings = true →
      (∀ p, (s.chip.printer p).claim = none ∧ (s.chip.printer p).queue = []) →
      ∃ t, exec (.start tag pins) s = .next t ∧ s.commanded t 2 tag ∧ c.did t.chip tag .none 0 [] ∧
        t.chip.linesDriven ∧
        t.chip = ((c.over t.chip).setMode .run).withRct
          { c.rct with lines := t.chip.rct.lines, driven := t.chip.rct.driven } ∧
        ∀ l, t.chip.line l =
          if l < 8 ∧ (s.chip.line l).record.fn.samples = true then
            { s.chip.line l with sampled := t.chip.pinActive l }
          else s.chip.line l)

/-- R29 and R45: STOP, taken in RUN with nothing due from the last tick (assumption 7) and no printer record
awaiting: the part is in PASS; every frame in HELD_WAITING is released with STOPPED, the coax list's and then
the pair list's, each in order, its own fetches withdrawn; an awaiting health commit is in force; the lines
are at their PASS levels; and the reply is formed. Every other entry, queued or waiting, stays. -/
def Obligations.StopReleasesHeldFrames : Prop :=
  ∀ (tag : Octet) (s : State), s.commandFree → s.chip.ctl.mode = .run → s.chip.nothingDue →
    s.chip.namesOk → (∀ p, s.chip.awaitingPrinter p = none) →
    let c := s.struckAt 0
    let waits := fun e => (s.chip.held e).filter fun v => decide (v.phase = .heldWaiting)
    let out := fun (x : Entry) =>
      (waits .coax).any (fun v => x.purpose.ofSlot .coax v.id) ||
        (waits .pair).any fun v => x.purpose.ofSlot .pair v.id
    let kept := fun (o : Owner) =>
      (c.path.queue.filter fun x => decide (x.owner = o) && !out x).map (·.work) ++
        ((c.waiting o).filter fun x => !(decide (o = .frame) && out x)).map (·.work)
    ∃ t, exec (.stop tag) s = .next t ∧ s.commanded t 3 tag ∧ t.chip.replied tag .none 0 ∧
      t.chip = { c with
        path := t.chip.path
        ctl := { c.ctl with
          mode := .pass
          command := t.chip.ctl.command
          health := s.chip.ctl.awaitingHealth.getD s.chip.ctl.health
          awaitingHealth := none }
        frm := t.chip.frm
        rct := { s.chip.rct with driven := t.chip.rct.driven } } ∧
      t.chip.linesDriven ∧ t.chip.path.bus = s.chip.path.bus ∧ t.chip.path.asking = s.chip.path.asking ∧
      (∀ e, t.chip.ctx e = s.chip.ctx e) ∧
      (∀ e, (t.chip.held e).map (·.id) = (s.chip.held e).map (·.id)) ∧
      (∀ e, ∀ v ∈ t.chip.held e, v.phase = .releasing) ∧
      t.chip.worksOf .frame = kept .frame ++ (waits .coax ++ waits .pair).flatMap (fun v =>
        [.deposit (v.word0 + 4) (unstruck [octetPair 15 0, 0, 0, 0]),
          .deposit v.word0 (unstruck [wordNat (v.saved.toNat % 16384 + 16384)])]) ∧
      t.chip.worksOf .control = kept .control ++ [s.chip.replyWork tag .none 0] ∧
      t.chip.worksOf .print = kept .print ∧ t.chip.worksOf .event = kept .event

/-- R30, R65, R126, R152 and R163: RESTART, taken in PASS, clears what the part has learned and keeps its
configuration; it records no event. That the print unit's waiting deposits outlive it is assumption 39, that
a decay tick still due is dropped assumption 42. -/
def Obligations.RestartClearsLearnedState : Prop :=
  ∀ (tag : Octet) (s : State), s.commandFree → s.chip.ctl.mode = .pass →
    let c := s.struckAt 0
    ∃ t, exec (.restart tag) s = .next t ∧ s.commanded t 4 tag ∧ c.did t.chip tag .none 0 [] ∧
      t.chip.linesDriven ∧
      t.chip = { c.over t.chip with
        stn := { c.stn with table := t.chip.stn.table, exhausted := false }
        hlth := { trunks := t.chip.hlth.trunks, decayCount := 0, decayDue := false }
        prt := { jobs := [], spool := [], printers := t.chip.prt.printers, toggles := [] }
        rct := { c.rct with timers := t.chip.rct.timers, driven := t.chip.rct.driven } } ∧
      (∀ k, t.chip.trunk k =
        if k < s.chip.ctl.unit.nt ∧ k < 4 then { Trunk.absent with state := .inService }
        else if k < 4 then Trunk.absent else s.chip.trunk k) ∧
      (∀ p, t.chip.printer p =
        if p < 8 ∧ p < s.chip.ctl.unit.np ∧ (s.chip.printerRec p).enabled = true then
          { Printer.blank with state := .ready }
        else Printer.blank) ∧
      (∀ k, t.chip.timer k =
        if k < 4 then { s.chip.timer k with running := false, count := 0 } else s.chip.timer k) ∧
      ∀ n, let e := s.chip.station n
        t.chip.station n =
          if n = 0 ∨ 255 ≤ n ∨ e.kind = .unit then e
          else if e.kind = .empty ∨ e.pinned = false then Station.blank
          else if e.kind = .proxy then
            { e with age := 0, score := 0, quarantined := false, openJob := none }
          else { e with
            age := 0
            score := 0
            quarantined := false
            openJob := none
            lastChange := s.chip.stn.clock
            homeHearing := s.chip.stn.clock
            presence := if e.trunk < s.chip.ctl.unit.nt then .active else .unreachable }

/-- R31: STATUS deposits a snapshot of words 8 to 23, then its reply, and nothing else. That the high octet of
word 20, word 23 and the unused bits are 0 is assumption 37. -/
def Obligations.StatusDepositsASnapshot : Prop :=
  ∀ (tag pins : Octet) (s : State), s.commandFree → s.chip.ctl.mode ≠ .loading →
    let c := (s.setPins pins).struckAt 0
    let count := fun (l : List Nat) (f : Nat → Bool) => wordNat (l.filter f).length
    ∃ t ws, exec (.status tag pins) s = .next t ∧ s.commanded t 5 tag ∧ t.chip.replied tag .none 0 ∧
      t.chip = c.over t.chip ∧ c.grew t.chip ∧ c.logs t.chip [] ∧
      c.formed t.chip .frame [] ∧ c.formed t.chip .print [] ∧
      c.formed t.chip .control
        [.deposit (s.chip.base + 8) (unstruck ws), s.chip.replyWork tag .none 0] ∧
      ws.length = 16 ∧
      ws.getD 0 0 = octetPair c.ctl.mode.code (if c.ctl.gateClosed then 1 else 0) ∧
      bitOf (ws.getD 1 0) 0 = c.ctl.pendingHealth.isSome ∧ bitOf (ws.getD 1 0) 15 = c.ctl.awaitingHealth.isSome ∧
      bitOf (ws.getD 1 0) 1 = c.ctl.pendingPrint.isSome ∧ bitOf (ws.getD 1 0) 2 = c.ctl.pendingAging.isSome ∧
      (∀ l < 8, bitOf (ws.getD 1 0) (3 + l) = (tget none c.ctl.pendingLines l).isSome) ∧
      (∀ k < 4, bitOf (ws.getD 1 0) (11 + k) = (tget none c.ctl.pendingTimers k).isSome) ∧
      (∀ p < 8, bitOf (ws.getD 2 0) p = (tget none c.ctl.pendingPrinters p).isSome ∧
        bitOf (ws.getD 2 0) (8 + p) = (c.awaitingPrinter p).isSome) ∧
      (∀ r < 16, bitOf (ws.getD 3 0) r = (tget none c.ctl.pendingReactions r).isSome) ∧
      ws.getD 4 0 = octetPair (c.trunk 0).state.code (c.trunk 1).state.code ∧
      ws.getD 5 0 = octetPair (c.trunk 2).state.code (c.trunk 3).state.code ∧
      ws.getD 6 0 = count (List.range 255) (fun n => n ≠ 0 ∧ (c.station n).kind = .legacy) ∧
      ws.getD 7 0 = count (List.range 255) (fun n => n ≠ 0 ∧ (c.station n).kind = .proxy) ∧
      ws.getD 8 0 = count (List.range 32) (fun j => (c.job j).state ≠ .free) ∧
      ws.getD 9 0 = count (List.range 128) (fun i => (c.spoolEntry i).isNone) ∧
      ws.getD 10 0 = wordNat c.path.queue.length ∧
      (∀ l < 8, bitOf (ws.getD 11 0) l = c.pinHigh l ∧
        bitOf (ws.getD 11 0) (8 + l) = decide (c.drive l ≠ .undriven)) ∧
      ws.getD 12 0 = octetPair 0 c.evt.overflow.toNat ∧
      ws.getD 13 0 = octetPair (c.held .coax).length (c.held .pair).length ∧
      ws.getD 14 0 = wordNat s.chip.cab.toNat ∧ ws.getD 15 0 = 0

/-- R32: INQUIRE refuses an unknown kind with BAD_KIND and a first index outside the kind's table with
BAD_INDEX; else it forms exactly the records asked for, at most 16 and none past the table's end, record k at
I + 4k, each taken from its table entry when it joins the queue, then its reply, which counts them; that I is
the one in force at the taking is the model's choice (assumption 62). And the contents of the six kinds of
record, field by field. -/
def Obligations.InquireDepositsRecords : Prop :=
  (∀ (tag : Octet) (s : State), s.commandFree → s.chip.ctl.mode ≠ .loading →
    let c := s.struckAt 0
    let a := fun k => (s.chip.staged k).toNat
    let ends := [(1, 255), (0, 64), (0, 4), (0, 8), (0, 32), (0, 4)].getD (a 1 - 1) (0, 0)
    let n := min (min (a 3) 16) (ends.2 - a 2)
    (a 1 = 0 ∨ 6 < a 1 →
      ∃ t, exec (.inquire tag) s = .next t ∧ s.commanded t 6 tag ∧ c.refusedWith t.chip tag .badKind) ∧
    (1 ≤ a 1 → a 1 ≤ 6 → (a 2 < ends.1 ∨ ends.2 ≤ a 2) →
      ∃ t, exec (.inquire tag) s = .next t ∧ s.commanded t 6 tag ∧ c.refusedWith t.chip tag .badIndex) ∧
    (1 ≤ a 1 → a 1 ≤ 6 → ends.1 ≤ a 2 → a 2 < ends.2 →
      ∃ t kind l, exec (.inquire tag) s = .next t ∧ s.commanded t 6 tag ∧ t.chip.replied tag .none n ∧
        t.chip = c.over t.chip ∧ c.grew t.chip ∧ c.logs t.chip [] ∧
        c.formed t.chip .frame [] ∧ c.formed t.chip .print [] ∧
        c.formed t.chip .control (l ++ [s.chip.replyWork tag .none n]) ∧
        inqKindOf (a 1) = some kind ∧ l.length = n ∧
        ∀ k < n, let at' := s.chip.base + s.chip.ctl.unit.inquiryWord + 4 * k
          l[k]? = some (.inquiry kind (a 2 + k) at') ∨
            l[k]? = some (.deposit at' (unstruck (inquiryRecord c kind (a 2 + k)))))) ∧
  ∀ (c : Chip) (i : Nat), i < 255 →
    let word := fun kind k => (inquiryRecord c kind i).getD k 0
    (∀ kind, (inquiryRecord c kind i).length = 4) ∧
    (let e := c.station i
      let w := word .stations
      bitsOf (w 0) 8 8 = i ∧ bitsOf (w 0) 0 2 = e.kind.code ∧ bitOf (w 0) 2 = e.pinned ∧
      (e.kind = .legacy → bitsOf (w 0) 3 2 = e.trunk % 4) ∧ (e.kind ≠ .legacy → bitsOf (w 0) 3 2 = 0) ∧
      (e.trunk < 4 → bitsOf (w 0) 5 2 = e.presence.code ∧ bitOf (w 0) 7 = e.quarantined) ∧
      w 1 = wordNat e.age ∧ (e.score < 256 → bitsOf (w 2) 8 8 = e.score) ∧
      bitOf (w 2) 7 = e.openJob.isSome ∧ (∀ j < 32, e.openJob = some j → bitsOf (w 2) 0 5 = j) ∧
      w 3 = match e.kind with
        | .legacy => wordNat (min 65535 ((c.stn.clock - e.lastChange).toNat / 100))
        | .proxy => wordNat e.slot
        | _ => 0) ∧
    ((∀ n ∈ List.range 255, ¬ ((c.station n).kind = .proxy ∧ (c.station n).slot = i)) →
      inquiryRecord c .proxies i = [0, 0, 0, 0]) ∧
    (∀ n < 255, (∀ m < 255, (c.station m).kind = .proxy ∧ (c.station m).slot = i ↔ m = n) →
      let w := word .proxies
      bitsOf (w 0) 8 8 = n ∧ bitOf (w 0) 0 = true ∧ bitOf (w 0) 1 = (c.station n).pinned ∧
      (w 1).toNat * 4294967296 + (w 2).toNat * 65536 + (w 3).toNat = (c.station n).addr.toNat) ∧
    (let r := c.trunk i
      let w := word .trunks
      let up := fun (n : Nat) => if n % 100 = 0 then n / 100 else n / 100 + 1
      bitsOf (w 0) 8 8 = i ∧ bitsOf (w 0) 0 3 = r.state.code ∧ bitOf (w 0) 3 = r.forced ∧
      (r.strikes < 16 → bitsOf (w 0) 4 4 = r.strikes) ∧ w 1 = wordNat r.score ∧
      w 2 = wordNat (up (r.countdown.getD 0)) ∧ w 3 = wordNat (up (r.clearCountdown.getD 0))) ∧
    (let v := c.printer i
      let r := c.printerRec (i / 2 * 2)
      let w := word .printers
      (c.ctl.unit.np ≤ i → inquiryRecord c .printers i = [wordNat (256 * i), 0, 0, 0]) ∧
      (i < c.ctl.unit.np → bitsOf (w 0) 8 8 = i ∧ bitsOf (w 0) 0 2 = v.state.code ∧
        bitsOf (w 0) 2 2 = r.pairMode.code ∧ bitOf (w 0) 4 = r.swap ∧ bitOf (w 0) 5 = c.toggle (i / 2) ∧
        bitOf (w 0) 6 = (c.awaitingPrinter i).isSome ∧ bitOf (w 0) 7 = v.claim.isSome ∧
        (v.queue.length < 256 → bitsOf (w 1) 0 8 = v.queue.length) ∧
        (v.claim = none → bitsOf (w 1) 8 8 = 0) ∧ (∀ j < 32, v.claim = some j → bitsOf (w 1) 8 8 = j) ∧
        w 2 = v.produced ∧ w 3 = v.done)) ∧
    (let v := c.job i
      let w := word .jobs
      (v.state = .free → inquiryRecord c .jobs i = [wordNat (256 * i), 0, 0, 0]) ∧
      (v.state ≠ .free → i < 32 → v.printer < 8 → bitsOf (w 0) 13 3 = v.printer ∧ bitsOf (w 0) 8 5 = i ∧
        bitsOf (w 0) 0 3 = v.state.code ∧ bitOf (w 0) 5 = decide (v.closed ≠ .no) ∧
        bitOf (w 0) 6 = v.reason.isSome ∧
        bitOf (w 0) 7 = decide ((c.printer v.printer).claim = some i) ∧
        (v.resume ≠ .suspended →
          bitsOf (w 0) 3 2 = if v.state = .suspended then v.resume.code else 0) ∧
        (v.owner < 256 → bitsOf (w 1) 8 8 = v.owner) ∧ bitsOf (w 1) 0 8 = v.seq.toNat ∧
        w 2 = wordNat v.accepted ∧ w 3 = wordNat v.printed)) ∧
    (let v := c.timer i
      let w := word .timers
      bitsOf (w 0) 8 8 = i ∧ bitOf (w 0) 0 = v.running ∧ bitOf (w 0) 1 = v.record.repeats ∧
      w 1 = wordNat v.record.period ∧ w 2 = wordNat v.count ∧ w 3 = v.expiries)

/-! ### Station commands -/

/-- R60, R61, R69 and R77, applied at their taking, here with no frame in HELD_WAITING: the refusals in each
rule's order; the entry SET_STATION leaves, a PROXY's address in the lowest free slot of the map; and the
entry that CLEAR_STATION and FREE_PROXY empty, with the event each records, where 0 or 1 for the pinned setting
is the model's choice (assumption 61). -/
def Obligations.StationCommandsSetAndEmptyEntries : Prop :=
  ∀ (tag : Octet) (s : State), s.commandFree → s.chip.ctl.mode ≠ .loading →
    (∀ e, ∀ v ∈ s.chip.held e, v.phase ≠ .heldWaiting) →
    let c := s.struckAt 0
    let a1 := s.chip.staged 1
    let n := a1.toNat % 256
    let x := addrOf (s.chip.staged 2) (s.chip.staged 3) (s.chip.staged 4)
    let kind := bitsOf a1 8 2
    let pinned := bitOf a1 15
    let e := s.chip.station n
    let holds := fun (k : Nat) => ∃ m ∈ List.range 255, m ≠ 0 ∧ m ≠ n ∧
      (s.chip.station m).kind = .proxy ∧ (s.chip.station m).slot = k
    let refusal : Detail :=
      if n = 0 ∨ n = 255 then .badIndex
      else if kind ≠ 1 ∧ kind ≠ 2 then .badKind
      else if e.kind = .unit then .badIndex
      else if e.openJob ≠ none then .jobOpen
      else if kind = 1 ∧ s.chip.ctl.unit.nt ≤ (s.chip.staged 2).toNat then .badIndex
      else if kind = 2 ∧ x.toNat / 256 = s.chip.ctl.unit.aliasBase.toNat / 256 then .aliasAddress
      else if kind = 2 ∧ (∃ m ∈ List.range 255, m ≠ 0 ∧ m ≠ n ∧ (s.chip.station m).kind = .proxy ∧
        (s.chip.station m).addr = x) then .duplicateAddress
      else if kind = 2 ∧ pinned = false ∧ n ∉ s.chip.ctl.unit.proxyRange then .badIndex
      else if kind = 2 ∧ e.kind ≠ .proxy ∧ (∀ k ∈ List.range 64, holds k) then .badIndex
      else .none
    let clearRefusal : Detail :=
      if n = 0 ∨ n = 255 ∨ e.kind = .unit then .badIndex else if e.openJob ≠ none then .jobOpen else .none
    let freeRefusal : Detail :=
      if n = 0 ∨ n = 255 then .badIndex
      else if e.kind ≠ .proxy then .badKind
      else if e.openJob ≠ none then .jobOpen
      else .none
    let changed := fun (t : State) (events : List Logged) =>
      c.did t.chip tag .none 0 events ∧
      t.chip = (c.over t.chip).withStn { c.stn with table := t.chip.stn.table } ∧
      ∀ m, m ≠ n → t.chip.station m = s.chip.station m
    (refusal ≠ .none → ∃ t, exec (.setStation tag) s = .next t ∧ s.commanded t 16 tag ∧
      c.refusedWith t.chip tag refusal) ∧
    (refusal = .none → ∃ t, exec (.setStation tag) s = .next t ∧ s.commanded t 16 tag ∧
      changed t [.plain .station 7 (wordNat n) (octetPair kind (if pinned then 1 else 0)) 0] ∧
      (kind = 1 → t.chip.station n =
        { Station.blank with
          kind := .legacy
          pinned := pinned
          trunk := (s.chip.staged 2).toNat
          presence := if (s.chip.trunk (s.chip.staged 2).toNat).state.cut then .unreachable else .active
          lastChange := s.chip.stn.clock
          homeHearing := s.chip.stn.clock }) ∧
      (kind = 2 → t.chip.station n =
        { Station.blank with
          kind := .proxy
          pinned := pinned
          addr := x
          slot := (t.chip.station n).slot } ∧
        ∀ k < 64, ¬ holds k → (∀ i < k, holds i) → (t.chip.station n).slot = k)) ∧
    (clearRefusal ≠ .none → ∃ t, exec (.clearStation tag) s = .next t ∧ s.commanded t 17 tag ∧
      c.refusedWith t.chip tag clearRefusal) ∧
    (clearRefusal = .none → ∃ t, exec (.clearStation tag) s = .next t ∧ s.commanded t 17 tag ∧
      changed t (if e.kind = .empty then []
        else [.plain .station 8 (wordNat n) (octetPair e.kind.code 0) 0]) ∧
      t.chip.station n = if e.kind = .empty then e else Station.blank) ∧
    (freeRefusal ≠ .none → ∃ t, exec (.freeProxy tag) s = .next t ∧ s.commanded t 18 tag ∧
      c.refusedWith t.chip tag freeRefusal) ∧
    (freeRefusal = .none → ∃ t, exec (.freeProxy tag) s = .next t ∧ s.commanded t 18 tag ∧
      changed t [.pair 4 (wordNat n) (octetPair 2 0) 0 e.addr] ∧ t.chip.station n = Station.blank)

/-- R62: a station command whose entry held frames in HELD_WAITING refer to waits, with its arguments. While one
of them is left in HELD_WAITING nothing changes; then it is applied: its reply is formed with a detail, and
where that is NONE at most its own entry changes and at most one event is recorded, else nothing more. What
is applied is shown for a CLEAR_STATION of a LEGACY entry with no open job. -/
def Obligations.StationCommandsWaitForHeldFrames : Prop :=
  ∀ (tag : Octet) (s : State),
    (s.commandFree → s.chip.ctl.mode ≠ .loading →
      let n := (s.chip.staged 1).toNat % 256
      let frames := s.chip.framesFor .coax n ++ s.chip.framesFor .pair n
      let waits := fun (i : Instr) (code : Nat) (op : StationCommand) => ∃ t, exec i s = .next t ∧
        s.commanded t code tag ∧ t.chip = (s.struckAt 0).setCommand (some
          { tag := tag
            phase := .stationWait op (s.chip.staged 1) (s.chip.staged 2) (s.chip.staged 3)
              (s.chip.staged 4) frames })
      frames ≠ [] → waits (.setStation tag) 16 .set ∧ waits (.clearStation tag) 17 .clear ∧
        waits (.freeProxy tag) 18 .freeProxy) ∧
    ∀ op a1 a2 a3 a4 frames,
      s.chip.ctl.command = some { tag := tag, phase := .stationWait op a1 a2 a3 a4 frames } →
      let still := ∃ e, ∃ v ∈ s.chip.held e, v.id ∈ frames ∧ v.phase = .heldWaiting
      let n := a1.toNat % 256
      (still → exec .applyStationCommand s = .next s) ∧
      (¬ still → ∃ t d l, exec .applyStationCommand s = .next t ∧ s.outsideKept t ∧
        s.chip.did t.chip tag d 0 l ∧ l.length ≤ 1 ∧ (d ≠ .none → l = [] ∧ t.chip = s.chip.over t.chip) ∧
        t.chip = (s.chip.over t.chip).withStn { s.chip.stn with table := t.chip.stn.table } ∧
        ∀ m, m ≠ n → t.chip.station m = s.chip.station m) ∧
      (¬ still → op = .clear → n ≠ 0 → n ≠ 255 → (s.chip.station n).kind = .legacy →
        (s.chip.station n).openJob = none →
        ∃ t, exec .applyStationCommand s = .next t ∧ s.outsideKept t ∧
          s.chip.did t.chip tag .none 0 [.plain .station 8 (wordNat n) (octetPair 1 0) 0] ∧
          t.chip = (s.chip.over t.chip).withStn { s.chip.stn with table := t.chip.stn.table } ∧
          ∀ m, t.chip.station m = if m = n then Station.blank else s.chip.station m)

/-- R128 to R130, in RUN: QUARANTINE sets the score to 255 and a GOOD entry's standing, here one with no open job
and no reaction in force; RELEASE_STATION sets the score to 0 and the standing to GOOD. Both refuse 0 and 255
with BAD_INDEX, EMPTY and UNIT with BAD_KIND. The QUARANTINE of an entry with an open job is left out. -/
def Obligations.StationStandingCommands : Prop :=
  ∀ (tag : Octet) (s : State), s.commandFree → s.chip.ctl.mode = .run →
    let c := s.struckAt 0
    let n := (s.chip.staged 1).toNat % 256
    let e := s.chip.station n
    let refusal : Detail :=
      if n = 0 ∨ n = 255 then .badIndex else if e.kind = .empty ∨ e.kind = .unit then .badKind else .none
    let moved := fun (t : State) (score : Nat) (q : Bool) (events : List Logged) =>
      c.did t.chip tag .none 0 events ∧
      t.chip = (c.over t.chip).withStn { c.stn with table := t.chip.stn.table } ∧
      ∀ m, t.chip.station m =
        if m = n then { e with score := score, quarantined := q } else s.chip.station m
    (refusal ≠ .none →
      (∃ t, exec (.quarantine tag) s = .next t ∧ s.commanded t 32 tag ∧ c.refusedWith t.chip tag refusal) ∧
      ∃ t, exec (.releaseStation tag) s = .next t ∧ s.commanded t 33 tag ∧
        c.refusedWith t.chip tag refusal) ∧
    (refusal = .none → e.quarantined = true →
      ∃ t, exec (.quarantine tag) s = .next t ∧ s.commanded t 32 tag ∧ moved t 255 true []) ∧
    (refusal = .none → e.quarantined = false → e.openJob = none → s.chip.noReactions →
      ∃ t, exec (.quarantine tag) s = .next t ∧ s.commanded t 32 tag ∧
        moved t 255 true [.plain .station 10 (wordNat n) (octetPair 2 255) 0]) ∧
    (refusal = .none → ∃ t, exec (.releaseStation tag) s = .next t ∧ s.commanded t 33 tag ∧
      moved t 0 false
        (if e.quarantined then [.plain .station 11 (wordNat n) (octetPair 2 0) 0] else []))

/-! ### Trunk commands -/

/-- R58, R120, R121, R123, R148 and R149, in RUN, no reaction in force: ISOLATE_TRUNK and RELEASE_TRUNK refuse a
trunk not below NT with BAD_INDEX. A connected trunk is forced into ISOLATED, its stations become UNREACHABLE
and its jobs SUSPENDED; an ISOLATED one is forced; a LOCKED_OUT one stays. A cut trunk is released into TRIAL,
its stations come back and its SUSPENDED jobs resume, here with none of them WAITING for a READY printer; a
trunk not cut is refused with NOT_CUT. That stations and jobs are taken in ascending number is assumption 53,
that the silence limit is the last second boundary's assumption 56, and that a resumed job keeps no resume
state and no trunk (FREE and 0) assumption 36, each the model's choice. -/
def Obligations.TrunkCommandsCutAndRelease : Prop :=
  ∀ (tag : Octet) (s : State), s.commandFree → s.chip.ctl.mode = .run → s.chip.noReactions →
    let c := s.struckAt 0
    let k := (s.chip.staged 1).toNat % 256
    let r := s.chip.trunk k
    let h := s.chip.ctl.health
    let set := fun (t : State) (v : Trunk) => ∀ i, t.chip.trunk i = if i = k then v else s.chip.trunk i
    let followed := fun (t : State) => t.chip.linesDriven ∧ t.chip = { c.over t.chip with
      hlth := { c.hlth with trunks := t.chip.hlth.trunks }
      stn := { c.stn with table := t.chip.stn.table }
      prt := { c.prt with jobs := t.chip.prt.jobs }
      rct := { c.rct with driven := t.chip.rct.driven } }
    (s.chip.ctl.unit.nt ≤ k →
      (∃ t, exec (.isolateTrunk tag) s = .next t ∧ s.commanded t 34 tag ∧
        c.refusedWith t.chip tag .badIndex) ∧
      ∃ t, exec (.releaseTrunk tag) s = .next t ∧ s.commanded t 35 tag ∧
        c.refusedWith t.chip tag .badIndex) ∧
    (k < s.chip.ctl.unit.nt → r.state.connected = true →
      (∃ t, exec (.releaseTrunk tag) s = .next t ∧ s.commanded t 35 tag ∧ c.refusedWith t.chip tag .notCut) ∧
      ∃ t, exec (.isolateTrunk tag) s = .next t ∧ s.commanded t 34 tag ∧
        set t { r with state := .isolated, forced := true, countdown := none, clearCountdown := none } ∧
        followed t ∧
        (∀ n, t.chip.station n = s.chip.cutBy k n) ∧ (∀ j, t.chip.job j = s.chip.hungBy k j) ∧
        c.did t.chip tag .none 0 (s.chip.cutEvents k 5)) ∧
    (k < s.chip.ctl.unit.nt → r.state.cut = true →
      (∃ t, exec (.isolateTrunk tag) s = .next t ∧ s.commanded t 34 tag ∧ c.did t.chip tag .none 0 [] ∧
        set t (if r.state = .isolated then { r with forced := true, countdown := none } else r) ∧
        t.chip = (c.over t.chip).withHlth { c.hlth with trunks := t.chip.hlth.trunks }) ∧
      (s.chip.noneToServe k →
        let strikes := if r.state = .lockedOut then 0 else r.strikes
        ∃ t, exec (.releaseTrunk tag) s = .next t ∧ s.commanded t 35 tag ∧
          set t { r with
            state := .trial
            score := h.ti / 2
            countdown := some (h.trial * 100)
            clearCountdown := none
            forced := false
            strikes := strikes } ∧
          followed t ∧ (∀ n, t.chip.station n = s.chip.reachedBy k n) ∧
          (∀ j, t.chip.job j = s.chip.resumedBy k j) ∧
          c.did t.chip tag .none 0 (s.chip.releaseEvents k strikes 5)))

/-! ### Job and printer commands -/

/-- R139, R142 and R143, in RUN: CANCEL_JOB refuses a number above 31, a FREE record and an abandoned job with
BAD_INDEX. A job that has no entry IN_RING, here with no reaction in force and, if it is the claimant, with no
job waiting for its printer and no printer record awaiting, ends at once: its entries are free, its owner's
open-job field is cleared, it leaves the wait queue or its claim, and its record is FREE. A claimant with an
entry IN_RING becomes CLOSING, its other entries free; that it keeps no resume state and no trunk (FREE and 0)
is the model's choice (assumption 36). -/
def Obligations.CancelJobAbandonsTheJob : Prop :=
  ∀ (tag : Octet) (s : State), s.commandFree → s.chip.ctl.mode = .run →
    let c := s.struckAt 0
    let j := (s.chip.staged 1).toNat % 256
    let v := s.chip.job j
    let p := v.printer
    let framed := fun (t : State) => t.chip = { c.over t.chip with
        prt := { c.prt with
          jobs := t.chip.prt.jobs
          spool := t.chip.prt.spool
          printers := t.chip.prt.printers }
        stn := { c.stn with table := t.chip.stn.table } } ∧
      (∀ i, t.chip.spoolEntry i =
        if i ∈ v.spool ∧ s.chip.entryInRing i = false then none else s.chip.spoolEntry i) ∧
      (∀ i, i ≠ j → t.chip.job i = { s.chip.job i with spool := (t.chip.job i).spool }) ∧
      (∀ n, t.chip.station n =
        if n = v.owner ∧ (s.chip.station n).openJob = some j then { s.chip.station n with openJob := none }
        else s.chip.station n) ∧
      ∀ q, q ≠ p → t.chip.printer q = s.chip.printer q
    (32 ≤ j ∨ v.state = .free ∨ v.reason ≠ none → ∃ t, exec (.cancelJob tag) s = .next t ∧
      s.commanded t 48 tag ∧ c.refusedWith t.chip tag .badIndex) ∧
    (j < 32 → v.state ≠ .free → v.reason = none → s.chip.noReactions → s.chip.ringBusy j = false →
      ((s.chip.printer p).claim = some j →
        (s.chip.printer p).queue = [] ∧ s.chip.awaitingPrinter p = none) →
      ∃ t, exec (.cancelJob tag) s = .next t ∧ s.commanded t 48 tag ∧ framed t ∧
        t.chip.job j = Job.blank ∧
        t.chip.printer p = { s.chip.printer p with
          claim := if (s.chip.printer p).claim = some j then none else (s.chip.printer p).claim
          queue := (s.chip.printer p).queue.filter (· ≠ j) } ∧
        c.did t.chip tag .none 0 [jobEvent 6 p j (octetPair v.owner 2) 0]) ∧
    (j < 32 → v.state ≠ .free → v.reason = none → (s.chip.printer p).claim = some j →
      s.chip.ringBusy j = true →
      ∃ t, exec (.cancelJob tag) s = .next t ∧ s.commanded t 48 tag ∧ framed t ∧
        t.chip.job j = { v with
          state := .closing
          reason := some .cancelled
          resume := .free
          trunk := 0
          idle := none
          grace := none
          spool := (t.chip.job j).spool } ∧
        ((∀ i ∈ v.spool, ∃ e, s.chip.spoolEntry i = some e ∧ e.job = j) →
          (t.chip.job j).spool = v.spool.filter s.chip.entryInRing) ∧
        t.chip.printer p = { s.chip.printer p with queue := (s.chip.printer p).queue.filter (· ≠ j) } ∧
        c.did t.chip tag .none 0 [])

/-- R152, R157 and R158, in RUN: HOLD_PRINTER and RESUME_PRINTER refuse a printer out of force or DISABLED with
BAD_INDEX. In a pair that is not FAILOVER, with no reaction in force, HOLD_PRINTER leaves the printer HELD;
RESUME_PRINTER leaves it READY, here one with nothing claimed or waiting. The state as it was is left so. A
FAILOVER pair and a RESUME_PRINTER with jobs to serve have statements of their own. -/
def Obligations.PrinterHoldAndResume : Prop :=
  ∀ (tag : Octet) (s : State), s.commandFree → s.chip.ctl.mode = .run → s.chip.noReactions →
    let c := s.struckAt 0
    let p := (s.chip.staged 1).toNat % 256
    let v := s.chip.printer p
    let absent := 8 ≤ p ∨ s.chip.ctl.unit.np ≤ p ∨ v.state = .disabled
    let moved := fun (t : State) (st : PrinterState) =>
      c.did t.chip tag .none 0 (printerEvents p v.state st 3) ∧
      t.chip = { c.over t.chip with
        prt := { c.prt with printers := t.chip.prt.printers }
        rct := { c.rct with driven := t.chip.rct.driven } } ∧
      (∀ q, t.chip.printer q = if q = p then { v with state := st } else s.chip.printer q) ∧
      (v.state = st → t.chip.rct = c.rct) ∧ (v.state ≠ st → t.chip.linesDriven)
    (absent →
      (∃ t, exec (.holdPrinter tag) s = .next t ∧ s.commanded t 49 tag ∧ c.refusedWith t.chip tag .badIndex) ∧
      ∃ t, exec (.resumePrinter tag) s = .next t ∧ s.commanded t 50 tag ∧
        c.refusedWith t.chip tag .badIndex) ∧
    (¬ absent → s.chip.pairModeOf p ≠ .failover →
      (∃ t, exec (.holdPrinter tag) s = .next t ∧ s.commanded t 49 tag ∧ moved t .held) ∧
      (v.claim = none → v.queue = [] →
        ∃ t, exec (.resumePrinter tag) s = .next t ∧ s.commanded t 50 tag ∧ moved t .ready))

/-! ### Timer and line commands -/

/-- R164, R165, R168 and R170, in RUN: START_TIMER and STOP_TIMER refuse a number above 3 with BAD_INDEX. A start
sets the count to the period, RUNNING or not; with period 0 the timer expires at once, here with no reaction
in force. A stop leaves the timer STOPPED with count 0. SET_LINE refuses a number above 7 with BAD_INDEX and a
line that is not OUTPUT with NOT_OUTPUT; else the kept level is bit 0 of A2 and the pin is driven to it. -/
def Obligations.TimerAndLineCommands : Prop :=
  ∀ (tag : Octet) (s : State), s.commandFree → s.chip.ctl.mode = .run →
    let c := s.struckAt 0
    let k := (s.chip.staged 1).toNat % 256
    let v := s.chip.timer k
    let set := fun (t : State) (w : Timer) (events : List Logged) =>
      c.did t.chip tag .none 0 events ∧
      t.chip = (c.over t.chip).withRct { c.rct with timers := t.chip.rct.timers } ∧
      ∀ i, t.chip.timer i = if i = k then w else s.chip.timer i
    let level := if bitOf (s.chip.staged 2) 0 then Level.high else Level.low
    let lineRefusal : Detail :=
      if 8 ≤ k then .badIndex else if (s.chip.line k).record.fn ≠ .output then .notOutput else .none
    (4 ≤ k →
      (∃ t, exec (.startTimer tag) s = .next t ∧ s.commanded t 64 tag ∧ c.refusedWith t.chip tag .badIndex) ∧
      ∃ t, exec (.stopTimer tag) s = .next t ∧ s.commanded t 65 tag ∧ c.refusedWith t.chip tag .badIndex) ∧
    (k < 4 →
      (∃ t, exec (.stopTimer tag) s = .next t ∧ s.commanded t 65 tag ∧
        set t { v with running := false, count := 0 } []) ∧
      (v.record.period ≠ 0 → ∃ t, exec (.startTimer tag) s = .next t ∧ s.commanded t 64 tag ∧
        set t { v with running := true, count := v.record.period } []) ∧
      (v.record.period = 0 → s.chip.noReactions →
        ∃ t, exec (.startTimer tag) s = .next t ∧ s.commanded t 64 tag ∧
          set t { v with running := false, count := 0, expiries := v.expiries + 1 }
            [.plain .reaction 1 (wordNat k) 0 (v.expiries + 1)])) ∧
    (lineRefusal ≠ .none → ∃ t, exec (.setLine tag) s = .next t ∧ s.commanded t 66 tag ∧
      c.refusedWith t.chip tag lineRefusal) ∧
    (lineRefusal = .none → ∃ t, exec (.setLine tag) s = .next t ∧ s.commanded t 66 tag ∧
      c.did t.chip tag .none 0 [] ∧
      t.chip = (c.over t.chip).withRct { c.rct with
        lines := t.chip.rct.lines
        driven := t.chip.rct.driven } ∧
      (∀ i, t.chip.line i = if i = k then { s.chip.line i with kept := level } else s.chip.line i) ∧
      t.chip.drive k = level ∧ t.chip.linesDriven)

/-! ### The part's own work -/

/-- R9, R26, R45, R176, R179, R27, R43 and R131: one private cycle. An empty queue gives none. A deposit writes
its unstruck words and leaves the queue; a status word's then frees its slot, a reply's ends its command, a
producer's shows its records. A fetch fills what its slot lacks of the descriptor's words 1 to 3, of the
header, or the payload word. LOAD's first fetch is taken, here with no commit pending, as the gate, the masks
and the unit record's first ten words (it is so cut by assumption 34); each fetch from word 48 on as the
records' words it holds, health, print and aging records coming into force whole; the last ends the command.
A pair frame whose word 6 shows no link frame takes no word after it (R43); where one part of the buffer
address is missing both are filled (assumption 30); LOAD takes no gap word, here 29 to 31 and 60 to 63
(assumption 43), and its fetch of words 42 to 57 is left out. Addresses are taken modulo 1048576
(assumption 14). -/
def Obligations.PrivateCyclePerformsTheOldest : Prop :=
  ∀ (pins : Octet) (s : State),
    (s.chip.path.queue = [] →
      exec (.privateCycle pins) s = .next { s with chip := { s.chip with pins := pins } }) ∧
    ∀ e q, s.chip.path.queue = e :: q →
      let c := { s.chip with
        pins := pins
        path := { s.chip.path with
          queue := q
          bus := s.chip.path.bus.map fun b => { b with owed := b.owed - 1 } } }
      let u := s.chip.ctl.unit
      let filled := fun (en : Engine) (id : Nat) (is : State → Slot → Prop) =>
        ∃ t w, exec (.privateCycle pins) s = .next t ∧ s.outsideKept t ∧
          t.chip = { c with path := t.chip.path, frm := t.chip.frm } ∧ c.grew t.chip ∧
          (∀ o, o ≠ .frame → c.formed t.chip o []) ∧
          (t.chip.worksOf .frame).length ≤ (c.worksOf .frame).length + 1 ∧ (∀ r, t.chip.ctx r = s.chip.ctx r) ∧
          (∀ r, r ≠ en → t.chip.held r = s.chip.held r) ∧
          (t.chip.held en).map (·.id) = (s.chip.held en).map (·.id) ∧
          w ∈ t.chip.held en ∧ w.id = id ∧ is t w
      (∀ a ws, e.work = .deposit a ws → ws.length ≤ 16 →
        ∃ t, exec (.privateCycle pins) s = .next t ∧ s.writeKept t ∧
          (∀ j < ws.length, (ws.getD j (0, true)).2 = false →
            readWord t.mem (a + j) = (ws.getD j (0, true)).1) ∧
          (∀ k, (∀ j < ws.length, (ws.getD j (0, true)).2 = false → k / 2 ≠ (a + j) % 1048576) →
            readOctet t.mem k = readOctet s.mem k) ∧
          match e.purpose with
          | .statusWord en _ id => t.chip = { c with frm := t.chip.frm } ∧
            t.chip.held en = (s.chip.held en).filter (fun v => v.id ≠ id) ∧
            (∀ r, r ≠ en → t.chip.held r = s.chip.held r) ∧ ∀ r, t.chip.ctx r = s.chip.ctx r
          | .reply _ => t.chip = c.setCommand none
          | .producer v classes => t.chip = c.withEvt { c.evt with
              shown := v
              unread := c.evt.unread ++ classes
              notice := t.chip.evt.notice } ∧
            (t.chip.evt.notice = true ↔
              ∃ k : EvClass, 0 < t.chip.evt.unread.count k ∧ maskHas c.ctl.noticeMask k = true)
          | _ => t.chip = c) ∧
      (∀ en a n id k v, e.work = .fetch a n → e.purpose = .headerFetch en id k → s.chip.namesOk →
        v ∈ s.chip.held en → v.id = id →
        filled en id fun _ w =>
          let seen := fun j => (tget none w.octets j).isSome
          let notLink := en = .pair ∧ seen 12 = true ∧ seen 13 = true ∧
            (u.linkType = 0 ∨ w.num 12 * 256 + w.num 13 ≠ u.linkType.toNat)
          w = { v with octets := w.octets, fetching := w.fetching } ∧
          ∀ j, tget none w.octets j =
            if (tget none v.octets j).isSome = true ∨ j < 2 * k ∨ 2 * (k + n) ≤ j ∨ (14 ≤ j ∧ notLink) then
              tget none v.octets j
            else if j % 2 = 0 then some (hiOctet (readWord s.mem (a + (j / 2 - k))))
            else some (loOctet (readWord s.mem (a + (j / 2 - k))))) ∧
      (∀ en a id v, e.work = .fetch a 3 → e.purpose = .descriptorFetch en id → s.chip.namesOk →
        v ∈ s.chip.held en → v.id = id →
        let lacks := v.lo = none ∨ v.hi = none
        filled en id fun _ w => w = { v with
          fetching := w.fetching
          lo := if lacks then some (readWord s.mem a) else v.lo
          hi := if lacks then some (wordNat (bitsOf (readWord s.mem (a + 1)) 0 4)) else v.hi
          len := if v.len = none then some (readWord s.mem (a + 2)) else v.len }) ∧
      (∀ en a id v, e.work = .fetch a 1 → e.purpose = .payloadFetch en id → s.chip.namesOk →
        v ∈ s.chip.held en → v.id = id →
        filled en id fun _ w => w = { v with
          fetching := w.fetching
          payload := some (readWord s.mem a) }) ∧
      (∀ a tag left count formed, e.work = .fetch a 16 → e.purpose = .loadFetch 26 → 2 ≤ left →
        s.chip.ctl.command = some { tag := tag, phase := .loading left count formed } →
        s.chip.ctl.pendingCommits = [] →
        ∃ t f, exec (.privateCycle pins) s = .next t ∧ s.outsideKept t ∧
          t.chip = { c with ctl := t.chip.ctl, evt := { c.evt with notice := t.chip.evt.notice } } ∧
          t.chip.ctl = { s.chip.ctl with
            staging := t.chip.ctl.staging
            gateClosed := decide (readWord s.mem a ≠ 0)
            noticeMask := loOctet (readWord s.mem (a + 1))
            recordMask := loOctet (readWord s.mem (a + 2))
            pendingLines := t.chip.ctl.pendingLines
            pendingTimers := t.chip.ctl.pendingTimers
            pendingPrinters := t.chip.ctl.pendingPrinters
            pendingReactions := t.chip.ctl.pendingReactions
            command := some { tag := tag, phase := .loading (left - 1) count f } } ∧
          t.chip.ctl.pendingCommits = [] ∧
          ∀ k, t.chip.staged k =
            if 32 ≤ k ∧ k < 42 then readWord s.mem (a + (k - 26)) else s.chip.staged k) ∧
      ∀ a n off tag left count formed, e.work = .fetch a n → e.purpose = .loadFetch off → 48 ≤ off → n ≤ 16 →
        s.chip.ctl.mode = .loading → u.np ≤ 8 → u.nr ≤ 16 → 1 ≤ left →
        s.chip.ctl.command = some { tag := tag, phase := .loading left count formed } →
        let has := fun o => off ≤ o ∧ o < off + n
        ∃ t count', exec (.privateCycle pins) s = .next t ∧ s.outsideKept t ∧
          t.chip.ctl.unit = u ∧ t.chip.hlth = s.chip.hlth ∧ (∀ en, t.chip.held en = s.chip.held en) ∧
          t.chip.ctl.gateClosed = s.chip.ctl.gateClosed ∧ t.chip.ctl.noticeMask = s.chip.ctl.noticeMask ∧
          t.chip.ctl.recordMask = s.chip.ctl.recordMask ∧
          (∀ o id i, has o → recordAt u o = some (id, i) →
            t.chip.staged (stagingKey id i) = readWord s.mem (a + (o - off))) ∧
          (∀ k, (∀ o id i, has o → recordAt u o = some (id, i) → stagingKey id i ≠ k) →
            t.chip.staged k = s.chip.staged k) ∧
          t.chip.ctl.health =
            (if has 79 then healthRecOf (fun i => (t.chip.staged (64 + i)).toNat) else s.chip.ctl.health) ∧
          t.chip.ctl.print =
            (if has 87 then printRecOf (fun i => (t.chip.staged (80 + i)).toNat) else s.chip.ctl.print) ∧
          t.chip.ctl.aging =
            (if has 119 then agingRecOf (fun i => (t.chip.staged (112 + i)).toNat) else s.chip.ctl.aging) ∧
          (2 ≤ left → t.chip.ctl.mode = .loading ∧ ∃ f, t.chip.ctl.command =
            some { tag := tag, phase := .loading (left - 1) count' f }) ∧
          (left = 1 → t.chip.ctl.mode = .pass ∧ t.chip.replied tag .none count')

/-- R8 and R32: a free place goes to the first unit, in circular turn, that has an entry to offer; the entry
joins at the tail, an inquiry record with its words taken then. With no place or no entry nothing happens. -/
def Obligations.QueuePlacesGoInTurn : Prop :=
  ∀ s : State,
    ((16 ≤ s.chip.path.queue.length ∨ ∀ o, s.chip.offered o = none) →
      exec .queuePlaceGiven s = .next s) ∧
    ∀ o e before after, s.chip.path.queue.length < 16 → s.chip.path.turn.fromTurn = before ++ o :: after →
      (∀ x ∈ before, s.chip.offered x = none) → s.chip.offered o = some e → e.owner = o →
      ∃ t w, exec .queuePlaceGiven s = .next t ∧ s.outsideKept t ∧
        t.chip = { s.chip with path := t.chip.path } ∧
        t.chip.path.queue = s.chip.path.queue ++ [{ e with work := w }] ∧
        (w = match e.work with
          | .inquiry k i a => .deposit a (unstruck (inquiryRecord s.chip k i))
          | x => x) ∧
        t.chip.path.turn = o.next ∧ t.chip.path.bus = s.chip.path.bus ∧
        t.chip.path.asking = s.chip.path.asking ∧
        s.chip.waiting o = e :: t.chip.waiting o ∧ ∀ x, x ≠ o → t.chip.waiting x = s.chip.waiting x

/-! ### Stage two -/

/-- R34, R36, R41, R42, R44, R45 and R81 to R91: stage two. Outside RUN, or with no frame ready, nothing happens
(assumption 24). A frame whose verdict is fixed is released with it and shown to no unit, and one whose
trunk is found cut, a pair frame with an error, one that is no link frame or not for the legacy side, and one
with a bad link header change nothing else either. The verdicts of other evaluated frames are shown for a
coax frame with a bad header; for one from a LEGACY station with no open job, whose length fits, which is
QUARANTINED, or GOOD, on its own trunk and without error LONG, no print frame to the unit; and for a link
frame from a proxy the table holds, no print frame to the unit. All ones in M is read by the embedded
destination whatever the alias block (assumption 29); that a frame whose trunk is found cut gets source and
destination 0 is the model's choice (assumption 15). In each release the verdict words come before the
status word. -/
def Obligations.StageTwoReleasesFrames : Prop :=
  ∀ (e : Engine) (s : State),
    ((s.chip.ctl.mode ≠ .run ∨ s.chip.atEvaluation e = none ∨
        ∀ v, s.chip.atEvaluation e = some v → v.ready s.chip.ctl.unit e = false) →
      exec (.stageTwo e) s = .next s) ∧
    ∀ v, s.chip.evaluating e v →
      let out := fun (words : List (Word × Bool)) =>
        ∃ t, exec (.stageTwo e) s = .next t ∧ s.released t e v words
      let unseen := fun (words : List (Word × Bool)) =>
        ∃ t, exec (.stageTwo e) s = .next t ∧ s.released t e v words ∧
          t.chip = { s.chip with path := t.chip.path, frm := t.chip.frm } ∧
          s.chip.logs t.chip [] ∧ s.chip.formed t.chip .print []
      let u := s.chip.ctl.unit
      let o := v.num
      let mask := fun (p : Nat → Bool) => ((List.range 4).map fun k => if p k then 2 ^ k else 0).sum
      (∀ code detail, v.fixed = some { code := code, detail := detail } → unseen (verdictOf code 0 0 detail 0)) ∧
      (e = .coax → v.fixed = none → (s.chip.trunk v.trunk).state.cut = true → unseen (verdictOf 14 0 0 1 0)) ∧
      (e = .coax → s.chip.coaxFrame v → ¬ v.sumGood 0 → out (verdictOf 11 0 0 1 0)) ∧
      (e = .coax → s.chip.heardFrame v → (s.chip.station (o 1)).kind = .legacy →
        (s.chip.station (o 1)).quarantined = true → (s.chip.station (o 1)).openJob = none →
        out (verdictOf 12 (o 1) (o 0) 1 0)) ∧
      (e = .coax → s.chip.goodFrame v → (s.chip.station (o 1)).openJob = none →
        let d := s.chip.station (o 0)
        let others := mask fun k => decide (s.chip.up k) && decide (k ≠ v.trunk)
        (o 0 = 0 → out (verdictOf 4 (o 1) 0 0 (others + 16))) ∧
        (o 0 ≠ 0 → o 0 = u.u → ¬ (16 ≤ o 2 ∧ o 2 ≤ 19) → out (verdictOf 6 (o 1) (o 0) 0 0)) ∧
        (o 0 ≠ 0 → o 0 ≠ u.u →
          (d.kind = .legacy → d.trunk = v.trunk → out (verdictOf 1 (o 1) (o 0) 0 0)) ∧
          (d.kind = .legacy → d.trunk ≠ v.trunk →
            (u.nt ≤ d.trunk ∨ (s.chip.trunk d.trunk).state.cut = true → out (verdictOf 14 (o 1) (o 0) 2 0)) ∧
            (s.chip.up d.trunk → d.quarantined = true → out (verdictOf 12 (o 1) (o 0) 2 0)) ∧
            (s.chip.up d.trunk → d.trunk < 4 → d.quarantined = false →
              out (verdictOf 2 (o 1) (o 0) 0 (2 ^ d.trunk)))) ∧
          (d.kind = .proxy → d.quarantined = true → out (verdictOf 12 (o 1) (o 0) 2 0)) ∧
          (d.kind = .proxy → d.quarantined = false →
            out (unstruck (octetPair 3 (o 1) :: addrWords d.addr))) ∧
          (d.kind = .empty → out (verdictOf 5 (o 1) (o 0) 0 (others + 16))))) ∧
      (e = .pair → v.fixed = none →
        (pairError v.saved ≠ 0 → unseen (verdictOf 10 0 0 (pairError v.saved) 0)) ∧
        (pairError v.saved = 0 → (u.linkType = 0 ∨ o 12 * 256 + o 13 ≠ u.linkType.toNat) →
          unseen (verdictOf 8 0 0 0 0))) ∧
      (e = .pair → s.chip.linkArrived v → v.destinedNowhere u → unseen (verdictOf 8 0 0 0 0)) ∧
      ∀ a toUnit, e = .pair → s.chip.linkArrived v → v.destined u a toUnit →
        (¬ v.sumGood 14 → unseen (verdictOf 11 0 0 1 0)) ∧
        (v.sumGood 14 → v.length < 22 + (o 18 * 256 + o 19) → unseen (verdictOf 11 0 0 3 0)) ∧
        ∀ p, v.sumGood 14 → 22 + (o 18 * 256 + o 19) ≤ v.length → u.inAliasBlock v.sourceAddr = false →
          s.chip.findAddr v.sourceAddr = some p →
          let d := s.chip.station a
          ((s.chip.station p).quarantined = true → out (verdictOf 12 p a 1 0)) ∧
          ((s.chip.station p).quarantined = false →
            (toUnit = true → ¬ (16 ≤ o 16 ∧ o 16 ≤ 19) → out (verdictOf 6 p a 0 0)) ∧
            (toUnit = false → a = 0 → out (verdictOf 4 p 0 0 (mask fun k => decide (s.chip.up k)))) ∧
            (toUnit = false → a ≠ 0 →
              (d.kind = .legacy → (u.nt ≤ d.trunk ∨ (s.chip.trunk d.trunk).state.cut = true) →
                out (verdictOf 14 p a 2 0)) ∧
              (d.kind = .legacy → s.chip.up d.trunk → d.quarantined = true → out (verdictOf 12 p a 2 0)) ∧
              (d.kind = .legacy → s.chip.up d.trunk → d.quarantined = false → d.trunk < 4 →
                out (verdictOf 2 p a 0 (2 ^ d.trunk))) ∧
              (d.kind = .proxy → out (verdictOf 1 p a 0 0)) ∧
              (d.kind = .empty → out (verdictOf 5 p a 0 (mask fun k => decide (s.chip.up k))))))

/-- R92, R132, R136, R137 and section 3.7: stage two of a PRINT_DATA to the unit from a GOOD LEGACY station on its
own trunk, whose open job's next block it is, with a free spool entry and the wait cap not met; here with no
job SUSPENDED, no reaction in force and a printer that is not READY. The block is accepted into the lowest
free entry (assumption 19), its address taken modulo 1048576 (assumption 14), and the verdict is TO_PRINT, its
buffer held; the hearing is R54's. -/
def Obligations.PrintDataIsSpooled : Prop :=
  ∀ (v : Slot) (j i : Nat) (s : State), s.chip.printFrame v 17 → s.chip.noneSuspended →
    let n := v.num 1
    let len := v.num 4 * 256 + v.num 5
    let e := s.chip.station n
    let w := s.chip.job j
    e.openJob = some j → v.octet 3 = w.seq + 1 → len ≠ 0 → (s.chip.printer w.printer).state ≠ .ready →
    (w.state ≠ .waiting ∨ w.spool.length < s.chip.ctl.print.waitCap) →
    i < 128 → s.chip.spoolEntry i = none → (∀ k < i, s.chip.spoolEntry k ≠ none) →
    ∃ t, exec (.stageTwo .coax) s = .next t ∧
      s.released t .coax v (printVerdict n (v.num 0) 1 (32 + 256 * (j % 32) + 8192 * (w.printer % 8)) 0) ∧
      t.chip = { s.chip.over t.chip with
        frm := t.chip.frm
        stn := { s.chip.stn with table := t.chip.stn.table }
        prt := { s.chip.prt with jobs := t.chip.prt.jobs, spool := t.chip.prt.spool } } ∧
      s.chip.logs t.chip (if e.presence = .silent then [presenceEvent n .silent .active] else []) ∧
      s.chip.formed t.chip .print [] ∧
      (∀ m, t.chip.station m =
        if m = n then { e with age := 0, homeHearing := s.chip.stn.clock, presence := .active }
        else s.chip.station m) ∧
      (∀ k, t.chip.job k =
        if k = j then { w with
          spool := w.spool ++ [i]
          accepted := min 65535 (w.accepted + len)
          seq := v.octet 3
          idle := if w.idle = none then none else s.chip.idleSpan }
        else s.chip.job k) ∧
      ∀ k, t.chip.spoolEntry k =
        if k = i then some
          { addr := (v.buffer + 4) % 1048576, len := len, job := j, srcRing := 1, srcIndex := v.index,
            inRing := false, ringIndex := none, ringCount := 0, stamp := 0 }
        else s.chip.spoolEntry k

/-- R52 to R55 and R75, of the hearing at stage two of a coax frame without error LONG that is no print frame to
the unit, no reaction in force and the entry with no open job: a station learned, heard at home, moved, or
flapping (here with its conflict charge below the station limit); a proxy evicted; and a clash with a pinned
proxy or the unit. The entry's change and its events are given whole; every other entry stays. -/
def Obligations.HearingsFollowTheTable : Prop :=
  ∀ (v : Slot) (s : State), s.chip.heardFrame v → coaxError v.saved ≠ 3 →
    (v.num 0 ≠ s.chip.ctl.unit.u ∨ v.num 0 = 0 ∨ ¬ (16 ≤ v.num 2 ∧ v.num 2 ≤ 19)) →
    let n := v.num 1
    let k := v.trunk
    let e := s.chip.station n
    let h := s.chip.ctl.health
    let now := s.chip.stn.clock
    let learned := { Station.blank with kind := .legacy, trunk := k, lastChange := now, homeHearing := now }
    let heard := fun (e' : Station) (events : List Logged) => ∃ t words,
      exec (.stageTwo .coax) s = .next t ∧ s.released t .coax v words ∧
      t.chip = { s.chip.over t.chip with
        frm := t.chip.frm
        stn := { s.chip.stn with table := t.chip.stn.table } } ∧
      (∀ m, t.chip.station m = if m = n then e' else s.chip.station m) ∧
      s.chip.logs t.chip events ∧ s.chip.formed t.chip .print []
    let flaps := e.pinned = true ∨ (s.chip.up e.trunk ∧ s.chip.ctl.aging.flapWindow ≠ 0 ∧
      (now - e.homeHearing).toNat < s.chip.ctl.aging.flapWindow * 100)
    (e.kind = .empty → heard learned [.plain .station 1 (wordNat n) (octetPair k 0) 0]) ∧
    (e.kind = .proxy → e.pinned = false → e.openJob = none →
      heard learned [.pair 3 (wordNat n) 0 0 e.addr, .plain .station 1 (wordNat n) (octetPair k 0) 0]) ∧
    ((e.kind = .proxy ∧ e.pinned = true) ∨ e.kind = .unit →
      ∃ t, exec (.stageTwo .coax) s = .next t ∧ s.released t .coax v (verdictOf 13 n (v.num 0) 0 0) ∧
        t.chip = { s.chip.over t.chip with frm := t.chip.frm } ∧ s.chip.formed t.chip .print [] ∧
        s.chip.logs t.chip [.plain .station 4 (wordNat n) (octetPair k e.kind.code) 0]) ∧
    (e.kind = .legacy → e.openJob = none →
      (e.trunk = k → heard { e with age := 0, homeHearing := now, presence := .active }
        (if e.presence = .silent then [presenceEvent n .silent .active] else [])) ∧
      (e.trunk ≠ k → ¬ flaps →
        heard { e with
          trunk := k
          lastChange := now
          homeHearing := now
          age := 0
          presence := .active } [.plain .station 2 (wordNat n) (octetPair e.trunk k) 0]) ∧
      (e.trunk ≠ k → flaps → e.quarantined = true ∨ min 255 (e.score + h.stationConflict) < h.stationLimit →
        heard { e with
          age := 0
          presence := if s.chip.up e.trunk then .active else e.presence
          score := if h.stationConflict = 0 then e.score else min 255 (e.score + h.stationConflict) }
          [.plain .station 3 (wordNat n) (octetPair e.trunk k) 0]))

/-- R70 to R73 and R89, of the lookup at stage two of a link frame to a station's alias, no reaction in force: a
source in the alias block clashes; a held address has its number and its age starts again; the all-ones
address has none; else the lowest EMPTY number of the range is lent, in the lowest free slot; with none, or
no slot, the oldest proxy of the range that may be reclaimed is, by the reclaim minimum of the last second
boundary (assumption 56); with none, there is no proxy, and the first such failure is recorded. -/
def Obligations.LookupsLendNumbers : Prop :=
  ∀ (v : Slot) (a : Nat) (s : State), s.chip.linkFrame v a →
    let x := v.sourceAddr
    let range := s.chip.ctl.unit.proxyRange
    let st := s.chip.station
    let proxy := fun m => m ≠ 0 ∧ m < 255 ∧ (st m).kind = .proxy
    let clashes := s.chip.ctl.unit.inAliasBlock x = true
    let held := ∃ m, proxy m ∧ (st m).addr = x
    let lowestSlot := fun (but k : Nat) => k < 64 ∧ (∀ m, m ≠ but → proxy m → (st m).slot ≠ k) ∧
      ∀ i < k, ∃ m, m ≠ but ∧ proxy m ∧ (st m).slot = i
    let spare := fun m => (st m).kind = .proxy ∧ (st m).pinned = false ∧ (st m).openJob = none ∧
      s.chip.stn.limits.reclaimMin ≤ (st m).age
    let looked := fun (flag : Bool) (events : List Logged) (p : Nat) (e : Station) => ∃ t words,
      exec (.stageTwo .pair) s = .next t ∧ s.released t .pair v words ∧
      t.chip = { s.chip.over t.chip with
        frm := t.chip.frm
        stn := { s.chip.stn with table := t.chip.stn.table, exhausted := flag } } ∧
      (∀ m, t.chip.station m = if m = p then e else st m) ∧
      s.chip.logs t.chip events ∧ s.chip.formed t.chip .print []
    let none' := fun (code : Nat) (flag : Bool) (events : List Logged) => ∃ t,
      exec (.stageTwo .pair) s = .next t ∧ s.released t .pair v (verdictOf code 0 a 0 0) ∧
      t.chip = { s.chip.over t.chip with
        frm := t.chip.frm
        stn := { s.chip.stn with exhausted := flag } } ∧
      s.chip.logs t.chip events ∧ s.chip.formed t.chip .print []
    let lent := fun (slot : Nat) => { Station.blank with kind := .proxy, addr := x, slot := slot }
    let given := fun (p slot : Nat) => Logged.pair 1 (wordNat p) (octetPair slot 0) 0 x
    (clashes → none' 13 s.chip.stn.exhausted [.pair 6 0 0 0 x]) ∧
    (¬ clashes → ∀ p, s.chip.findAddr x = some p →
      looked s.chip.stn.exhausted [] p { st p with age := 0 }) ∧
    (¬ clashes → ¬ held → x = BitVec.allOnes 48 → none' 9 s.chip.stn.exhausted []) ∧
    (¬ clashes → ¬ held → x ≠ BitVec.allOnes 48 →
      (∀ p slot before after, range = before ++ p :: after → (∀ m ∈ before, (st m).kind ≠ .empty) →
        (st p).kind = .empty → lowestSlot 0 slot → looked false [given p slot] p (lent slot)) ∧
      ((∀ m ∈ range, (st m).kind ≠ .empty) ∨ (∀ k < 64, ∃ m, proxy m ∧ (st m).slot = k) →
        (∀ p slot, p ∈ range → spare p →
          (∀ m ∈ range, spare m → (st m).age < (st p).age ∨ ((st m).age = (st p).age ∧ p ≤ m)) →
          lowestSlot p slot →
          looked false [.pair 2 (wordNat p) 0 0 (st p).addr, given p slot] p (lent slot)) ∧
        ((∀ m ∈ range, ¬ spare m) →
          none' 9 true (if s.chip.stn.exhausted then [] else [.pair 5 0 0 0 x]))))

/-- R35, R99, R100, R101 and R128, of the charges at stage two of a coax frame, no reaction in force. A bad header
charges its trunk with the header weight. A MALFORMED frame charges it with the malformed weight, its verdict
showing 0 for a station 255. A LEGACY source on its own trunk, with no open job, is charged the LONG and
MISMATCH weights in one; a GOOD one whose score comes to the station limit is QUARANTINED with cause CHARGE. -/
def Obligations.StageTwoChargesTrunksAndStations : Prop :=
  ∀ (v : Slot) (s : State), s.chip.coaxFrame v →
    let n := v.num 1
    let e := s.chip.station n
    let h := s.chip.ctl.health
    let long := coaxError v.saved = 3
    let mismatch := v.length ≠ 8 + (v.num 4 * 256 + v.num 5)
    let malformed := mismatch ∨ n = 0 ∨ n = 255 ∨ v.num 0 = 255
    let w := (if long then h.stationLong else 0) + (if mismatch then h.stationMismatch else 0)
    let score := if w = 0 then e.score else min 255 (e.score + w)
    let crossed := e.quarantined = false ∧ w ≠ 0 ∧ h.stationLimit ≤ score
    let charged := fun (t : State) (weight : Nat) => ∀ i, t.chip.trunk i =
      if i = v.trunk then (s.chip.trunk i).raisedBy h weight else s.chip.trunk i
    let shown := fun m => if m = 255 then 0 else m
    (¬ v.sumGood 0 → ∃ t, exec (.stageTwo .coax) s = .next t ∧
      s.released t .coax v (verdictOf 11 0 0 1 0) ∧ charged t h.header) ∧
    (v.sumGood 0 → malformed → (e.openJob = none ∨ n = 0 ∨ n = 255) → ∃ t, exec (.stageTwo .coax) s = .next t ∧
      s.released t .coax v (verdictOf 11 (shown n) (shown (v.num 0)) 2 0) ∧ charged t h.malformed ∧
      (e.kind = .legacy → e.trunk = v.trunk → n ≠ 0 → n ≠ 255 →
        (t.chip.station n).score = score ∧ (t.chip.station n).quarantined = (e.quarantined || decide crossed))) ∧
    (v.sumGood 0 → ¬ malformed → e.kind = .legacy → e.trunk = v.trunk → e.openJob = none →
      (v.num 0 ≠ s.chip.ctl.unit.u ∨ v.num 0 = 0 ∨ ¬ (16 ≤ v.num 2 ∧ v.num 2 ≤ 19)) →
      ∃ t words, exec (.stageTwo .coax) s = .next t ∧ s.released t .coax v words ∧
        t.chip = { s.chip.over t.chip with
          frm := t.chip.frm
          stn := { s.chip.stn with table := t.chip.stn.table } } ∧
        (∀ m, t.chip.station m =
          if m = n then { e with
            age := 0
            homeHearing := s.chip.stn.clock
            presence := .active
            score := score
            quarantined := e.quarantined || decide crossed }
          else s.chip.station m) ∧
        s.chip.logs t.chip
          ((if e.presence = .silent then [presenceEvent n .silent .active] else []) ++
            (if crossed then [.plain .station 10 (wordNat n) (octetPair 1 score) 0] else [])) ∧
        s.chip.formed t.chip .print [])

/-! ### Printing -/

/-- R92, R131, R132, R135, R141 and R159: stage two of a PRINT_OPEN to the unit from a GOOD LEGACY station on its
own trunk, no job SUSPENDED and no reaction in force. A duplicate; a refusal for want of a printer and of a job
record; and the job opened on the printer that R159 assigns, in the lowest FREE record (assumption 19), where
that printer is not READY or has no claimant and no job waiting, which then takes its claim. A REOPENED job,
and an open on a READY printer with jobs, are left out. -/
def Obligations.PrintOpenAssignsAPrinter : Prop :=
  ∀ (v : Slot) (s : State), s.chip.printFrame v 16 → s.chip.noneSuspended →
    let n := v.num 1
    let e := s.chip.station n
    let a := (hiOctet (v.payload.getD 0)).toNat
    let nowhere := v.num 4 * 256 + v.num 5 = 0 ∨ s.chip.ctl.unit.np ≤ a ∨
      (s.chip.printer a).state = .disabled
    let verdict := fun (t : State) (detail j p reason : Nat) =>
      s.released t .coax v
        (printVerdict n (v.num 0) detail (256 * (j % 32) + 8192 * (p % 8)) reason) ∧
      s.chip.formed t.chip .print []
    let heard := { e with age := 0, homeHearing := s.chip.stn.clock, presence := .active }
    let stays := fun (detail j p reason : Nat) => ∃ t, exec (.stageTwo .coax) s = .next t ∧
      verdict t detail j p reason ∧
      t.chip = { s.chip.over t.chip with
        frm := t.chip.frm
        stn := { s.chip.stn with table := t.chip.stn.table } } ∧
      (∀ m, t.chip.station m = if m = n then heard else s.chip.station m) ∧
      s.chip.logs t.chip (if e.presence = .silent then [presenceEvent n .silent .active] else [])
    let ready := fun p => (s.chip.printer p).state = .ready
    let mate := fun (p : Nat) => if p % 2 = 0 then p + 1 else p - 1
    let tog := if s.chip.toggle (a / 2) then 1 else 0
    let chosen := if (s.chip.printerRec (a / 2 * 2)).swap then a / 2 * 2 + 1 - tog else a / 2 * 2 + tog
    let p := match s.chip.pairModeOf a with
      | .independent => a
      | .failover => if ready a then a else if ready (mate a) then mate a else a
      | .alternate =>
        if ready chosen then chosen else if ready (mate chosen) then mate chosen
        else if (s.chip.printer chosen).state ≠ .disabled then chosen else mate chosen
    (∀ j, e.openJob = some j → (s.chip.job j).accepted = 0 → stays 2 j (s.chip.job j).printer 0) ∧
    (e.openJob = none → nowhere → stays 4 0 0 1) ∧
    (e.openJob = none → ¬ nowhere → (∀ j < 32, (s.chip.job j).state ≠ .free) → stays 4 0 0 2) ∧
    (∀ j, e.openJob = none → ¬ nowhere → j < 32 → (s.chip.job j).state = .free →
      (∀ i < j, (s.chip.job i).state ≠ .free) →
      (ready p → (s.chip.printer p).claim = none ∧ (s.chip.printer p).queue = []) →
      let job := { Job.blank with owner := n, printer := p, seq := v.octet 3 }
      ∃ t, exec (.stageTwo .coax) s = .next t ∧ verdict t 1 j p 0 ∧
        t.chip = { s.chip.over t.chip with
          frm := t.chip.frm
          stn := { s.chip.stn with table := t.chip.stn.table }
          prt := { s.chip.prt with
            jobs := t.chip.prt.jobs
            printers := t.chip.prt.printers
            toggles := t.chip.prt.toggles } } ∧
        (∀ m, t.chip.station m = if m = n then { heard with openJob := some j } else s.chip.station m) ∧
        (∀ i, t.chip.job i =
          if i ≠ j then s.chip.job i
          else if ready p then { job with state := .printing, idle := s.chip.idleSpan }
          else { job with state := .waiting }) ∧
        (∀ q, t.chip.printer q =
          if q ≠ p then s.chip.printer q
          else if ready p then { s.chip.printer p with claim := some j }
          else { s.chip.printer p with queue := (s.chip.printer p).queue ++ [j] }) ∧
        (∀ k, t.chip.toggle k =
          if k = a / 2 ∧ s.chip.pairModeOf a = .alternate then !s.chip.toggle k else s.chip.toggle k) ∧
        s.chip.logs t.chip
          ((if e.presence = .silent then [presenceEvent n .silent .active] else []) ++
            jobEvent 1 p j (octetPair n 0) 0 :: if ready p then [jobEvent 2 p j 0 0] else []))

/-- R92, R132, R138, R139, R142 and R143: stage two of a PRINT_CLOSE and of a PRINT_ABORT to the unit from a GOOD
LEGACY station on its own trunk, no job SUSPENDED and no reaction in force. Either is refused without an open
job, as a PRINT_DATA is. A close marks the job closed: a WAITING one waits on; a PRINTING one is CLOSING, and
ends with JOB_DONE when it has no text, here passing its claim to no job. An abort abandons the job: one with
no entry IN_RING, here not the claimant, ends at once; a claimant with text in the ring is CLOSING, and that it
keeps no resume state and no trunk (FREE and 0) is the model's choice (assumption 36). -/
def Obligations.PrintCloseAndAbortEndJobs : Prop :=
  ∀ (v : Slot) (s : State), s.chip.noneSuspended →
    let n := v.num 1
    let e := s.chip.station n
    let heard := { e with age := 0, homeHearing := s.chip.stn.clock, presence := .active }
    let taken := fun (t : State) (words : List (Word × Bool)) (events : List Logged) =>
      s.released t .coax v words ∧ s.chip.formed t.chip .print [] ∧
      t.chip = { s.chip.over t.chip with
        frm := t.chip.frm
        stn := { s.chip.stn with table := t.chip.stn.table }
        prt := { s.chip.prt with
          jobs := t.chip.prt.jobs
          spool := t.chip.prt.spool
          printers := t.chip.prt.printers } } ∧
      (∀ m, t.chip.station m = if m = n then { heard with openJob := none } else s.chip.station m) ∧
      s.chip.logs t.chip
        ((if e.presence = .silent then [presenceEvent n .silent .active] else []) ++ events)
    (∀ kind, kind = 17 ∨ kind = 18 ∨ kind = 19 → s.chip.printFrame v kind → e.openJob = none →
      ∃ t, exec (.stageTwo .coax) s = .next t ∧
        taken t (printVerdict n (v.num 0) 4 0 3) [] ∧ t.chip.prt = s.chip.prt) ∧
    ∀ j, e.openJob = some j → (s.chip.job j).owner = n → (s.chip.job j).reason = none →
      let w := s.chip.job j
      let p := w.printer
      let words := fun detail => printVerdict n (v.num 0) detail (256 * (j % 32) + 8192 * (p % 8)) 0
      let others := fun (t : State) => (∀ i, i ≠ j → t.chip.job i = s.chip.job i) ∧
        ∀ q, q ≠ p → t.chip.printer q = s.chip.printer q
      (s.chip.printFrame v 18 →
        (w.state = .waiting → ∃ t, exec (.stageTwo .coax) s = .next t ∧
          taken t (words 3) [] ∧ others t ∧ t.chip.prt.spool = s.chip.prt.spool ∧
          t.chip.job j = { w with closed := .close, idle := none } ∧
          t.chip.printer p = s.chip.printer p) ∧
        (w.state = .printing → w.spool ≠ [] →
          ∃ t, exec (.stageTwo .coax) s = .next t ∧
            taken t (words 3) [] ∧ others t ∧ t.chip.prt.spool = s.chip.prt.spool ∧
            t.chip.job j = { w with state := .closing, closed := .close, idle := none } ∧
            t.chip.printer p = s.chip.printer p) ∧
        (w.state = .printing → w.spool = [] → (s.chip.printer p).claim = some j →
          (s.chip.printer p).queue = [] → s.chip.awaitingPrinter p = none →
          ∃ t, exec (.stageTwo .coax) s = .next t ∧
            taken t (words 3) [jobEvent 5 p j (octetPair n 1) (wordNat w.printed)] ∧ others t ∧
            t.chip.prt.spool = s.chip.prt.spool ∧ t.chip.job j = Job.blank ∧
            t.chip.printer p = { s.chip.printer p with claim := none })) ∧
      (s.chip.printFrame v 19 → w.state ≠ .free →
        (∀ i ∈ w.spool, ∃ x, s.chip.spoolEntry i = some x ∧ x.job = j) →
        (s.chip.ringBusy j = false → (s.chip.printer p).claim ≠ some j →
          ∃ t, exec (.stageTwo .coax) s = .next t ∧
            taken t (words 1) [jobEvent 6 p j (octetPair n 1) 0] ∧ others t ∧ t.chip.job j = Job.blank ∧
            (∀ i, t.chip.spoolEntry i = if i ∈ w.spool then none else s.chip.spoolEntry i) ∧
            t.chip.printer p =
              { s.chip.printer p with queue := (s.chip.printer p).queue.filter (· ≠ j) }) ∧
        (s.chip.ringBusy j = true → (s.chip.printer p).claim = some j →
          ∃ t, exec (.stageTwo .coax) s = .next t ∧ taken t (words 1) [] ∧ others t ∧
            (∀ i, t.chip.spoolEntry i =
              if i ∈ w.spool ∧ s.chip.entryInRing i = false then none else s.chip.spoolEntry i) ∧
            t.chip.job j = { w with
              state := .closing
              reason := some .aborted
              resume := .free
              trunk := 0
              idle := none
              grace := none
              spool := w.spool.filter s.chip.entryInRing } ∧
            t.chip.printer p =
              { s.chip.printer p with queue := (s.chip.printer p).queue.filter (· ≠ j) }))

/-- R141, R145, R152 and R158: a RESUME_PRINTER, in RUN, of a printer STALLED or HELD, its pair not FAILOVER, with
no claimant, jobs waiting and an empty ring, no reaction in force. The oldest job not SUSPENDED, here one not
closed and not abandoned, takes the claim and is PRINTING; its text, here none of it in the ring, is deposited
in order into the descriptors from P on, words 1 to 7 and then word 0, until the text or the ring is out. -/
def Obligations.ResumedPrinterClaimsAndFeeds : Prop :=
  ∀ (tag : Octet) (j : Nat) (before after : List Nat) (s : State), s.commandFree → s.chip.ctl.mode = .run →
    s.chip.noReactions →
    let c := s.struckAt 0
    let p := (s.chip.staged 1).toNat % 256
    let v := s.chip.printer p
    let w := s.chip.job j
    let size := 2 ^ (s.chip.printerRec p).e
    let fed := w.spool.take size
    let desc := fun k => (v.produced + wordNat k).toNat % size
    p < 8 → p < s.chip.ctl.unit.np → (v.state = .stalled ∨ v.state = .held) →
    s.chip.pairModeOf p ≠ .failover → v.claim = none → v.queue = before ++ j :: after →
    (∀ i ∈ before, (s.chip.job i).state = .suspended) → w.state ≠ .suspended → w.closed = .no →
    w.reason = none → v.produced = v.done → (s.chip.printerRec p).e ≤ 6 → w.spool.Nodup →
    (∀ i ∈ w.spool, ∃ x, s.chip.spoolEntry i = some x ∧ x.inRing = false) →
    ∃ t, exec (.resumePrinter tag) s = .next t ∧ s.commanded t 50 tag ∧ t.chip.replied tag .none 0 ∧
      c.grew t.chip ∧
      c.logs t.chip (printerEvents p v.state .ready 3 ++ [jobEvent 2 p j 0 0]) ∧
      c.formed t.chip .control [s.chip.replyWork tag .none 0] ∧ c.formed t.chip .frame [] ∧
      c.formed t.chip .print ((List.range fed.length).flatMap fun k =>
        match s.chip.spoolEntry (fed.getD k 0) with
        | some x =>
          let a := (s.chip.printerRec p).base + 8 * desc k
          [.deposit (a + 1) (unstruck [wordNat x.addr, wordNat (x.addr / 65536), wordNat x.len, 0,
            wordNat x.job, wordNat x.srcRing, wordNat x.srcIndex]), .deposit a (unstruck [0])]
        | none => []) ∧
      t.chip.linesDriven ∧
      t.chip = { c.over t.chip with
        prt := { c.prt with
          jobs := t.chip.prt.jobs
          spool := t.chip.prt.spool
          printers := t.chip.prt.printers }
        rct := { c.rct with driven := t.chip.rct.driven } } ∧
      (∀ i, t.chip.job i =
        if i = j then { w with state := .printing, idle := s.chip.idleSpan } else s.chip.job i) ∧
      (∀ q, q ≠ p → t.chip.printer q = s.chip.printer q) ∧
      t.chip.printer p = { v with
        state := .ready
        claim := some j
        queue := v.queue.filter (· ≠ j)
        produced := v.produced + wordNat fed.length
        descs := (t.chip.printer p).descs } ∧
      (∀ k < fed.length,
        t.chip.desc p (desc k) = { entry := some (fed.getD k 0), completed := false, printed := 0 } ∧
        ∀ x, s.chip.spoolEntry (fed.getD k 0) = some x →
          t.chip.spoolEntry (fed.getD k 0) = some { x with
            inRing := true
            ringIndex := some (desc k)
            ringCount := v.produced + wordNat k
            stamp := ((t.chip.spoolEntry (fed.getD k 0)).getD x).stamp }) ∧
      (∀ i, i ∉ fed → t.chip.spoolEntry i = s.chip.spoolEntry i) ∧
      ∀ d, (∀ k < fed.length, desc k ≠ d) → t.chip.desc p d = s.chip.desc p d

/-- R152, R157, R158, R160 and R161, in RUN, no reaction in force, of a FAILOVER pair: HOLD_PRINTER of a READY
printer whose partner is READY, and RESUME_PRINTER of a STALLED or HELD one whose partner is not READY, move
every waiting job to the READY printer's queue, in order. Here that printer has a claimant with no text to
feed, so it takes no job. A change with no job to move, or no printer to move to, moves none. -/
def Obligations.FailoverMovesTheQueue : Prop :=
  ∀ (tag : Octet) (s : State), s.commandFree → s.chip.ctl.mode = .run → s.chip.noReactions →
    let c := s.struckAt 0
    let p := (s.chip.staged 1).toNat % 256
    let q := if p % 2 = 0 then p + 1 else p - 1
    let v := s.chip.printer p
    let w := s.chip.printer q
    p < 8 → p < s.chip.ctl.unit.np → s.chip.pairModeOf p = .failover → v.state ≠ .disabled →
    let busy := fun r => ∃ j, (s.chip.printer r).claim = some j ∧
      ∀ i ∈ (s.chip.job j).spool, s.chip.entryInRing i = true
    let framed := fun (t : State) => t.chip.linesDriven ∧ t.chip = { c.over t.chip with
      prt := { c.prt with jobs := t.chip.prt.jobs, printers := t.chip.prt.printers }
      rct := { c.rct with driven := t.chip.rct.driven } }
    let movedTo := fun (t : State) (jobs : List Nat) (b : Nat) => ∀ j, t.chip.job j =
      if j ∈ jobs then { s.chip.job j with printer := b } else s.chip.job j
    (v.state = .ready → w.state = .ready → v.queue ≠ [] → busy q →
      ∃ t, exec (.holdPrinter tag) s = .next t ∧ s.commanded t 49 tag ∧ framed t ∧
        c.did t.chip tag .none 0 (printerEvents p .ready .held 3 ++
          [.plain .printer 2 (wordNat p) (octetPair q v.queue.length) 0]) ∧
        movedTo t v.queue q ∧
        ∀ r, t.chip.printer r =
          if r = p then { v with state := .held, queue := [] }
          else if r = q then { w with queue := w.queue ++ v.queue }
          else s.chip.printer r) ∧
    (v.state ≠ .ready → w.state ≠ .ready → w.queue ≠ [] → busy p →
      ∃ t, exec (.resumePrinter tag) s = .next t ∧ s.commanded t 50 tag ∧ framed t ∧
        c.did t.chip tag .none 0 (printerEvents p v.state .ready 3 ++
          [.plain .printer 2 (wordNat q) (octetPair p w.queue.length) 0]) ∧
        movedTo t w.queue p ∧
        ∀ r, t.chip.printer r =
          if r = p then { v with state := .ready, queue := v.queue ++ w.queue }
          else if r = q then { w with queue := [] }
          else s.chip.printer r) ∧
    (v.state = .ready → w.state ≠ .ready ∨ v.queue = [] →
      ∃ t, exec (.holdPrinter tag) s = .next t ∧ s.commanded t 49 tag ∧ framed t ∧
        c.did t.chip tag .none 0 (printerEvents p .ready .held 3) ∧ movedTo t [] p ∧
        ∀ r, t.chip.printer r = if r = p then { v with state := .held } else s.chip.printer r) ∧
    (v.state ≠ .ready → w.state = .ready ∨ w.queue = [] → busy p →
      ∃ t, exec (.resumePrinter tag) s = .next t ∧ s.commanded t 50 tag ∧ framed t ∧
        c.did t.chip tag .none 0 (printerEvents p v.state .ready 3) ∧ movedTo t [] p ∧
        ∀ r, t.chip.printer r = if r = p then { v with state := .ready } else s.chip.printer r)

/-! ### Reactions and lines -/

/-- R58, R120, R123, R148, R164, R165, R170, R172 to R174: a reaction's action at the TIMER trigger of an expiry in
RUN, one reaction in force: a timer started or stopped, a line set, a trunk isolated with cause ACTION, a printer
held with cause ACTION, and, where the command would be refused, nothing. And a chain: a START_TIMER of a timer
with period 0 whose own trigger starts it again expires five times, at depths 1 to 4 and once more, and then
REACTION_LOOP is recorded; with a once reaction it expires twice. That an isolated trunk's stations and jobs are
taken in ascending number, which orders their records, is the model's choice (assumption 53). -/
def Obligations.ReactionsTakeActionsInChains : Prop :=
  (∀ (k : Nat) (s : State), s.chip.timerDue k = true → s.chip.ctl.mode = .run → s.chip.ctl.unit.nr = 1 →
    let r := s.chip.reaction 0
    let v := s.chip.timer k
    let o := r.actionObj
    r.enabled = true → r.once = false → r.trigger = .timer → r.triggerObj = k →
    let after := if v.record.repeats = true ∧ v.record.period ≠ 0 then
        { v with expiries := v.expiries + 1, running := true, count := v.record.period }
      else { v with expiries := v.expiries + 1, running := false, count := 0 }
    let timer := fun i => if i = k then after else s.chip.timer i
    let timers := fun (f : Nat → Timer) => ∃ t, exec (.timerExpiry k) s = .next t ∧ s.outsideKept t ∧
      t.chip = (s.chip.over t.chip).withRct { s.chip.rct with timers := t.chip.rct.timers } ∧
      (∀ i, t.chip.timer i = f i) ∧
      s.chip.only t.chip [.plain .reaction 1 (wordNat k) 0 (v.expiries + 1)]
    let others := fun (t : State) (events : List Logged) => s.outsideKept t ∧
      (∀ i, t.chip.timer i = timer i) ∧ t.chip.ctl = s.chip.ctl ∧
      s.chip.only t.chip (.plain .reaction 1 (wordNat k) 0 (v.expiries + 1) :: events)
    (r.action = .startTimer → o < 4 → o ≠ k → (s.chip.timer o).record.period ≠ 0 →
      timers fun i => if i = o then
          { s.chip.timer o with running := true, count := (s.chip.timer o).record.period }
        else timer i) ∧
    (r.action = .stopTimer → o < 4 → o ≠ k →
      timers fun i => if i = o then { s.chip.timer o with running := false, count := 0 } else timer i) ∧
    ((r.action = .startTimer ∨ r.action = .stopTimer) ∧ 4 ≤ o ∨
      (r.action = .setLineHigh ∨ r.action = .setLineLow) ∧ (s.chip.line o).record.fn ≠ .output ∨
      (r.action = .isolateTrunk ∨ r.action = .releaseTrunk) ∧ s.chip.ctl.unit.nt ≤ o ∨
      r.action = .releaseTrunk ∧ (s.chip.trunk o).state.cut = false ∨
      (r.action = .holdPrinter ∨ r.action = .resumePrinter) ∧ s.chip.ctl.unit.np ≤ o →
      timers timer) ∧
    ((r.action = .setLineHigh ∨ r.action = .setLineLow) → o < 8 → (s.chip.line o).record.fn = .output →
      let level := if r.action = .setLineHigh then Level.high else .low
      ∃ t, exec (.timerExpiry k) s = .next t ∧ others t [] ∧ t.chip.linesDriven ∧ t.chip.drive o = level ∧
        t.chip = (s.chip.over t.chip).withRct { s.chip.rct with
          timers := t.chip.rct.timers
          lines := t.chip.rct.lines
          driven := t.chip.rct.driven } ∧
        ∀ l, t.chip.line l = if l = o then { s.chip.line l with kept := level } else s.chip.line l) ∧
    (r.action = .isolateTrunk → o < s.chip.ctl.unit.nt → (s.chip.trunk o).state.connected = true →
      ∃ t, exec (.timerExpiry k) s = .next t ∧ others t (s.chip.cutEvents o 6) ∧ t.chip.linesDriven ∧
        t.chip = { s.chip.over t.chip with
          hlth := { s.chip.hlth with trunks := t.chip.hlth.trunks }
          stn := { s.chip.stn with table := t.chip.stn.table }
          prt := { s.chip.prt with jobs := t.chip.prt.jobs }
          rct := { s.chip.rct with timers := t.chip.rct.timers, driven := t.chip.rct.driven } } ∧
        (∀ i, t.chip.trunk i =
          if i = o then { s.chip.trunk o with
            state := .isolated
            forced := true
            countdown := none
            clearCountdown := none }
          else s.chip.trunk i) ∧
        (∀ n, t.chip.station n = s.chip.cutBy o n) ∧ ∀ j, t.chip.job j = s.chip.hungBy o j) ∧
    (r.action = .holdPrinter → o < 8 → o < s.chip.ctl.unit.np → (s.chip.printer o).state ≠ .disabled →
      (s.chip.printer o).state ≠ .held → s.chip.pairModeOf o ≠ .failover →
      ∃ t, exec (.timerExpiry k) s = .next t ∧
        others t (printerEvents o (s.chip.printer o).state .held 4) ∧ t.chip.linesDriven ∧
        t.chip = { s.chip.over t.chip with
          prt := { s.chip.prt with printers := t.chip.prt.printers }
          rct := { s.chip.rct with timers := t.chip.rct.timers, driven := t.chip.rct.driven } } ∧
        ∀ q, t.chip.printer q =
          if q = o then { s.chip.printer o with state := .held } else s.chip.printer q)) ∧
  ∀ (tag : Octet) (s : State), s.commandFree → s.chip.ctl.mode = .run → s.chip.ctl.unit.nr = 1 →
    let c := s.struckAt 0
    let k := (s.chip.staged 1).toNat % 256
    let v := s.chip.timer k
    let r := s.chip.reaction 0
    k < 4 → v.record.period = 0 → r.enabled = true → r.trigger = .timer → r.triggerObj = k →
    r.action = .startTimer → r.actionObj = k →
    let times := if r.once then 2 else 5
    ∃ t, exec (.startTimer tag) s = .next t ∧ s.commanded t 64 tag ∧
      t.chip = (c.over t.chip).withRct
        { c.rct with timers := t.chip.rct.timers, reactions := t.chip.rct.reactions } ∧
      (∀ i, t.chip.timer i =
        if i = k then { v with running := false, count := 0, expiries := v.expiries + wordNat times }
        else s.chip.timer i) ∧
      (∀ i, t.chip.reaction i = if i = 0 then { r with enabled := !r.once } else s.chip.reaction i) ∧
      c.did t.chip tag .none 0
        ((List.range times).map (fun i => .plain .reaction 1 (wordNat k) 0 (v.expiries + wordNat (i + 1))) ++
          if r.once then [] else [.plain .reaction 3 0 (octetPair 7 0) 0])

/-- R152, R156, R169 and R172, of a tick in RUN with nothing left due and the lines driven by R168. Each sampled
line whose level differs from its sampled level takes it, and is an edge; the edges are taken in ascending line
number, which R169 leaves open (assumption 59). The reactions that a rise or a fall fires, here all NOTE and
not once, record it in ascending number. A rise of a PRINTER_READY line whose printer is STALLED makes that
printer READY with cause LINE, here with no reaction in force, no such printer on another line, its pair not
FAILOVER and no job claimed or waiting. -/
def Obligations.LineEdgesAreTaken : Prop :=
  ∀ (pins : Octet) (s : State), s.chip.ctl.mode = .run → s.chip.nothingDue → s.chip.linesDriven →
    let stalled := fun l => (s.chip.line l).record.fn = .printerReady ∧
      (s.chip.printer (s.chip.line l).record.obj).state = .stalled
    let now := fun l => if (s.chip.line l).record.activeLow then !pins.getLsbD l else pins.getLsbD l
    let edge := fun l => (s.chip.line l).record.fn.samples = true ∧ now l ≠ (s.chip.line l).sampled
    let sampled := fun (t : State) => ∀ l, t.chip.line l =
      if l < 8 ∧ edge l then { s.chip.line l with sampled := now l } else s.chip.line l
    let fires := fun l r => r < s.chip.ctl.unit.nr ∧ (s.chip.reaction r).enabled = true ∧
      (s.chip.reaction r).trigger = (if now l then .lineRise else .lineFall) ∧
      (s.chip.reaction r).triggerObj = l
    ((∀ l < 8, ¬ stalled l) →
      (∀ l < 8, edge l → ∀ r < 16, fires l r →
        (s.chip.reaction r).action = .note ∧ (s.chip.reaction r).once = false) →
      ∃ t, exec (.tick pins) s = .next t ∧ s.outsideKept t ∧ sampled t ∧ t.chip.ctl = s.chip.ctl ∧
        t.chip.rct = { s.chip.rct with timers := t.chip.rct.timers, lines := t.chip.rct.lines } ∧
        t.chip.prt.printers = s.chip.prt.printers ∧
        s.chip.only t.chip
          (((List.range 8).filter fun l => decide (edge l)).flatMap fun l =>
            ((List.range 16).filter fun r => decide (fires l r)).map fun r =>
              .plain .reaction 2 (wordNat r) (octetPair (s.chip.reaction r).actionObj 0) 0)) ∧
    ∀ l < 8, let p := (s.chip.line l).record.obj
      stalled l → edge l → now l = true → (∀ i < 8, i ≠ l → ¬ stalled i) → s.chip.noReactions →
      s.chip.pairModeOf p ≠ .failover → (s.chip.printer p).claim = none → (s.chip.printer p).queue = [] →
      ∃ t, exec (.tick pins) s = .next t ∧ s.outsideKept t ∧ sampled t ∧ t.chip.ctl = s.chip.ctl ∧
        t.chip.linesDriven ∧
        (∀ q, t.chip.printer q =
          if q = p then { s.chip.printer p with state := .ready } else s.chip.printer q) ∧
        s.chip.only t.chip (printerEvents p .stalled .ready 2)

/-! ### Invariants -/

/-- Every step keeps memory in its canonical form. -/
def Obligations.MemoryStaysCanonical : Prop :=
  ∀ s t : State, s.memOk → Sys2Proof.Machine.step s = .next t → t.memOk

/-- Every step keeps the part's invariant: at most 16 queued entries (R7), runs of 1 to 16 words (R7), NOTICE low
exactly when an unconsumed record of a class in the notice mask exists (R179), at most four slots in a held
list (section 3.4), held frames' names distinct (the model's own), no access asked for while the bus is free
(R14; the model's own, assumption 3), the unit record in its ranges (R20). -/
def Obligations.PartStaysSound : Prop :=
  ∀ s t : State, s.chip.sound → Sys2Proof.Machine.step s = .next t → t.chip.sound

/-- The two invariants hold after reset. -/
def Obligations.ResetIsSound : Prop := State.reset.memOk ∧ State.reset.chip.sound
end

