-- ==== Sys2Proof/Laws/State.lean ====
section
/-! SUPPORT. What each update of the state leaves and sets, one lemma a field (all true by rfl). -/

namespace Sys2Proof.Machine

section Chip

variable (c : Chip)

@[simp] theorem Chip.withPath_resetAsserted (v : PathUnit) : (Chip.withPath v c).resetAsserted = c.resetAsserted := rfl
@[simp] theorem Chip.withPath_cab (v : PathUnit) : (Chip.withPath v c).cab = c.cab := rfl
@[simp] theorem Chip.withPath_pins (v : PathUnit) : (Chip.withPath v c).pins = c.pins := rfl
@[simp] theorem Chip.withPath_path (v : PathUnit) : (Chip.withPath v c).path = v := rfl
@[simp] theorem Chip.withPath_ctl (v : PathUnit) : (Chip.withPath v c).ctl = c.ctl := rfl
@[simp] theorem Chip.withPath_frm (v : PathUnit) : (Chip.withPath v c).frm = c.frm := rfl
@[simp] theorem Chip.withPath_stn (v : PathUnit) : (Chip.withPath v c).stn = c.stn := rfl
@[simp] theorem Chip.withPath_hlth (v : PathUnit) : (Chip.withPath v c).hlth = c.hlth := rfl
@[simp] theorem Chip.withPath_prt (v : PathUnit) : (Chip.withPath v c).prt = c.prt := rfl
@[simp] theorem Chip.withPath_rct (v : PathUnit) : (Chip.withPath v c).rct = c.rct := rfl
@[simp] theorem Chip.withPath_evt (v : PathUnit) : (Chip.withPath v c).evt = c.evt := rfl

@[simp] theorem Chip.withCtl_resetAsserted (v : ControlUnit) : (Chip.withCtl v c).resetAsserted = c.resetAsserted := rfl
@[simp] theorem Chip.withCtl_cab (v : ControlUnit) : (Chip.withCtl v c).cab = c.cab := rfl
@[simp] theorem Chip.withCtl_pins (v : ControlUnit) : (Chip.withCtl v c).pins = c.pins := rfl
@[simp] theorem Chip.withCtl_path (v : ControlUnit) : (Chip.withCtl v c).path = c.path := rfl
@[simp] theorem Chip.withCtl_ctl (v : ControlUnit) : (Chip.withCtl v c).ctl = v := rfl
@[simp] theorem Chip.withCtl_frm (v : ControlUnit) : (Chip.withCtl v c).frm = c.frm := rfl
@[simp] theorem Chip.withCtl_stn (v : ControlUnit) : (Chip.withCtl v c).stn = c.stn := rfl
@[simp] theorem Chip.withCtl_hlth (v : ControlUnit) : (Chip.withCtl v c).hlth = c.hlth := rfl
@[simp] theorem Chip.withCtl_prt (v : ControlUnit) : (Chip.withCtl v c).prt = c.prt := rfl
@[simp] theorem Chip.withCtl_rct (v : ControlUnit) : (Chip.withCtl v c).rct = c.rct := rfl
@[simp] theorem Chip.withCtl_evt (v : ControlUnit) : (Chip.withCtl v c).evt = c.evt := rfl

@[simp] theorem Chip.withFrm_resetAsserted (v : FrameUnit) : (Chip.withFrm v c).resetAsserted = c.resetAsserted := rfl
@[simp] theorem Chip.withFrm_cab (v : FrameUnit) : (Chip.withFrm v c).cab = c.cab := rfl
@[simp] theorem Chip.withFrm_pins (v : FrameUnit) : (Chip.withFrm v c).pins = c.pins := rfl
@[simp] theorem Chip.withFrm_path (v : FrameUnit) : (Chip.withFrm v c).path = c.path := rfl
@[simp] theorem Chip.withFrm_ctl (v : FrameUnit) : (Chip.withFrm v c).ctl = c.ctl := rfl
@[simp] theorem Chip.withFrm_frm (v : FrameUnit) : (Chip.withFrm v c).frm = v := rfl
@[simp] theorem Chip.withFrm_stn (v : FrameUnit) : (Chip.withFrm v c).stn = c.stn := rfl
@[simp] theorem Chip.withFrm_hlth (v : FrameUnit) : (Chip.withFrm v c).hlth = c.hlth := rfl
@[simp] theorem Chip.withFrm_prt (v : FrameUnit) : (Chip.withFrm v c).prt = c.prt := rfl
@[simp] theorem Chip.withFrm_rct (v : FrameUnit) : (Chip.withFrm v c).rct = c.rct := rfl
@[simp] theorem Chip.withFrm_evt (v : FrameUnit) : (Chip.withFrm v c).evt = c.evt := rfl

@[simp] theorem Chip.withStn_resetAsserted (v : StationUnit) : (Chip.withStn v c).resetAsserted = c.resetAsserted := rfl
@[simp] theorem Chip.withStn_cab (v : StationUnit) : (Chip.withStn v c).cab = c.cab := rfl
@[simp] theorem Chip.withStn_pins (v : StationUnit) : (Chip.withStn v c).pins = c.pins := rfl
@[simp] theorem Chip.withStn_path (v : StationUnit) : (Chip.withStn v c).path = c.path := rfl
@[simp] theorem Chip.withStn_ctl (v : StationUnit) : (Chip.withStn v c).ctl = c.ctl := rfl
@[simp] theorem Chip.withStn_frm (v : StationUnit) : (Chip.withStn v c).frm = c.frm := rfl
@[simp] theorem Chip.withStn_stn (v : StationUnit) : (Chip.withStn v c).stn = v := rfl
@[simp] theorem Chip.withStn_hlth (v : StationUnit) : (Chip.withStn v c).hlth = c.hlth := rfl
@[simp] theorem Chip.withStn_prt (v : StationUnit) : (Chip.withStn v c).prt = c.prt := rfl
@[simp] theorem Chip.withStn_rct (v : StationUnit) : (Chip.withStn v c).rct = c.rct := rfl
@[simp] theorem Chip.withStn_evt (v : StationUnit) : (Chip.withStn v c).evt = c.evt := rfl

@[simp] theorem Chip.withHlth_resetAsserted (v : HealthUnit) : (Chip.withHlth v c).resetAsserted = c.resetAsserted := rfl
@[simp] theorem Chip.withHlth_cab (v : HealthUnit) : (Chip.withHlth v c).cab = c.cab := rfl
@[simp] theorem Chip.withHlth_pins (v : HealthUnit) : (Chip.withHlth v c).pins = c.pins := rfl
@[simp] theorem Chip.withHlth_path (v : HealthUnit) : (Chip.withHlth v c).path = c.path := rfl
@[simp] theorem Chip.withHlth_ctl (v : HealthUnit) : (Chip.withHlth v c).ctl = c.ctl := rfl
@[simp] theorem Chip.withHlth_frm (v : HealthUnit) : (Chip.withHlth v c).frm = c.frm := rfl
@[simp] theorem Chip.withHlth_stn (v : HealthUnit) : (Chip.withHlth v c).stn = c.stn := rfl
@[simp] theorem Chip.withHlth_hlth (v : HealthUnit) : (Chip.withHlth v c).hlth = v := rfl
@[simp] theorem Chip.withHlth_prt (v : HealthUnit) : (Chip.withHlth v c).prt = c.prt := rfl
@[simp] theorem Chip.withHlth_rct (v : HealthUnit) : (Chip.withHlth v c).rct = c.rct := rfl
@[simp] theorem Chip.withHlth_evt (v : HealthUnit) : (Chip.withHlth v c).evt = c.evt := rfl

@[simp] theorem Chip.withPrt_resetAsserted (v : PrintUnit) : (Chip.withPrt v c).resetAsserted = c.resetAsserted := rfl
@[simp] theorem Chip.withPrt_cab (v : PrintUnit) : (Chip.withPrt v c).cab = c.cab := rfl
@[simp] theorem Chip.withPrt_pins (v : PrintUnit) : (Chip.withPrt v c).pins = c.pins := rfl
@[simp] theorem Chip.withPrt_path (v : PrintUnit) : (Chip.withPrt v c).path = c.path := rfl
@[simp] theorem Chip.withPrt_ctl (v : PrintUnit) : (Chip.withPrt v c).ctl = c.ctl := rfl
@[simp] theorem Chip.withPrt_frm (v : PrintUnit) : (Chip.withPrt v c).frm = c.frm := rfl
@[simp] theorem Chip.withPrt_stn (v : PrintUnit) : (Chip.withPrt v c).stn = c.stn := rfl
@[simp] theorem Chip.withPrt_hlth (v : PrintUnit) : (Chip.withPrt v c).hlth = c.hlth := rfl
@[simp] theorem Chip.withPrt_prt (v : PrintUnit) : (Chip.withPrt v c).prt = v := rfl
@[simp] theorem Chip.withPrt_rct (v : PrintUnit) : (Chip.withPrt v c).rct = c.rct := rfl
@[simp] theorem Chip.withPrt_evt (v : PrintUnit) : (Chip.withPrt v c).evt = c.evt := rfl

@[simp] theorem Chip.withRct_resetAsserted (v : ReactionUnit) : (Chip.withRct v c).resetAsserted = c.resetAsserted := rfl
@[simp] theorem Chip.withRct_cab (v : ReactionUnit) : (Chip.withRct v c).cab = c.cab := rfl
@[simp] theorem Chip.withRct_pins (v : ReactionUnit) : (Chip.withRct v c).pins = c.pins := rfl
@[simp] theorem Chip.withRct_path (v : ReactionUnit) : (Chip.withRct v c).path = c.path := rfl
@[simp] theorem Chip.withRct_ctl (v : ReactionUnit) : (Chip.withRct v c).ctl = c.ctl := rfl
@[simp] theorem Chip.withRct_frm (v : ReactionUnit) : (Chip.withRct v c).frm = c.frm := rfl
@[simp] theorem Chip.withRct_stn (v : ReactionUnit) : (Chip.withRct v c).stn = c.stn := rfl
@[simp] theorem Chip.withRct_hlth (v : ReactionUnit) : (Chip.withRct v c).hlth = c.hlth := rfl
@[simp] theorem Chip.withRct_prt (v : ReactionUnit) : (Chip.withRct v c).prt = c.prt := rfl
@[simp] theorem Chip.withRct_rct (v : ReactionUnit) : (Chip.withRct v c).rct = v := rfl
@[simp] theorem Chip.withRct_evt (v : ReactionUnit) : (Chip.withRct v c).evt = c.evt := rfl

@[simp] theorem Chip.withEvt_resetAsserted (v : EventUnit) : (Chip.withEvt v c).resetAsserted = c.resetAsserted := rfl
@[simp] theorem Chip.withEvt_cab (v : EventUnit) : (Chip.withEvt v c).cab = c.cab := rfl
@[simp] theorem Chip.withEvt_pins (v : EventUnit) : (Chip.withEvt v c).pins = c.pins := rfl
@[simp] theorem Chip.withEvt_path (v : EventUnit) : (Chip.withEvt v c).path = c.path := rfl
@[simp] theorem Chip.withEvt_ctl (v : EventUnit) : (Chip.withEvt v c).ctl = c.ctl := rfl
@[simp] theorem Chip.withEvt_frm (v : EventUnit) : (Chip.withEvt v c).frm = c.frm := rfl
@[simp] theorem Chip.withEvt_stn (v : EventUnit) : (Chip.withEvt v c).stn = c.stn := rfl
@[simp] theorem Chip.withEvt_hlth (v : EventUnit) : (Chip.withEvt v c).hlth = c.hlth := rfl
@[simp] theorem Chip.withEvt_prt (v : EventUnit) : (Chip.withEvt v c).prt = c.prt := rfl
@[simp] theorem Chip.withEvt_rct (v : EventUnit) : (Chip.withEvt v c).rct = c.rct := rfl
@[simp] theorem Chip.withEvt_evt (v : EventUnit) : (Chip.withEvt v c).evt = v := rfl

@[simp] theorem Chip.withPins_resetAsserted (v : Octet) : (Chip.withPins v c).resetAsserted = c.resetAsserted := rfl
@[simp] theorem Chip.withPins_cab (v : Octet) : (Chip.withPins v c).cab = c.cab := rfl
@[simp] theorem Chip.withPins_pins (v : Octet) : (Chip.withPins v c).pins = v := rfl
@[simp] theorem Chip.withPins_path (v : Octet) : (Chip.withPins v c).path = c.path := rfl
@[simp] theorem Chip.withPins_ctl (v : Octet) : (Chip.withPins v c).ctl = c.ctl := rfl
@[simp] theorem Chip.withPins_frm (v : Octet) : (Chip.withPins v c).frm = c.frm := rfl
@[simp] theorem Chip.withPins_stn (v : Octet) : (Chip.withPins v c).stn = c.stn := rfl
@[simp] theorem Chip.withPins_hlth (v : Octet) : (Chip.withPins v c).hlth = c.hlth := rfl
@[simp] theorem Chip.withPins_prt (v : Octet) : (Chip.withPins v c).prt = c.prt := rfl
@[simp] theorem Chip.withPins_rct (v : Octet) : (Chip.withPins v c).rct = c.rct := rfl
@[simp] theorem Chip.withPins_evt (v : Octet) : (Chip.withPins v c).evt = c.evt := rfl

@[simp] theorem Chip.putStation_resetAsserted (n : Nat) (v : Station) : (Chip.putStation n v c).resetAsserted = c.resetAsserted := rfl
@[simp] theorem Chip.putStation_cab (n : Nat) (v : Station) : (Chip.putStation n v c).cab = c.cab := rfl
@[simp] theorem Chip.putStation_pins (n : Nat) (v : Station) : (Chip.putStation n v c).pins = c.pins := rfl
@[simp] theorem Chip.putStation_path (n : Nat) (v : Station) : (Chip.putStation n v c).path = c.path := rfl
@[simp] theorem Chip.putStation_ctl (n : Nat) (v : Station) : (Chip.putStation n v c).ctl = c.ctl := rfl
@[simp] theorem Chip.putStation_frm (n : Nat) (v : Station) : (Chip.putStation n v c).frm = c.frm := rfl
@[simp] theorem Chip.putStation_hlth (n : Nat) (v : Station) : (Chip.putStation n v c).hlth = c.hlth := rfl
@[simp] theorem Chip.putStation_prt (n : Nat) (v : Station) : (Chip.putStation n v c).prt = c.prt := rfl
@[simp] theorem Chip.putStation_rct (n : Nat) (v : Station) : (Chip.putStation n v c).rct = c.rct := rfl
@[simp] theorem Chip.putStation_evt (n : Nat) (v : Station) : (Chip.putStation n v c).evt = c.evt := rfl

@[simp] theorem Chip.putTrunk_resetAsserted (t : Nat) (v : Trunk) : (Chip.putTrunk t v c).resetAsserted = c.resetAsserted := rfl
@[simp] theorem Chip.putTrunk_cab (t : Nat) (v : Trunk) : (Chip.putTrunk t v c).cab = c.cab := rfl
@[simp] theorem Chip.putTrunk_pins (t : Nat) (v : Trunk) : (Chip.putTrunk t v c).pins = c.pins := rfl
@[simp] theorem Chip.putTrunk_path (t : Nat) (v : Trunk) : (Chip.putTrunk t v c).path = c.path := rfl
@[simp] theorem Chip.putTrunk_ctl (t : Nat) (v : Trunk) : (Chip.putTrunk t v c).ctl = c.ctl := rfl
@[simp] theorem Chip.putTrunk_frm (t : Nat) (v : Trunk) : (Chip.putTrunk t v c).frm = c.frm := rfl
@[simp] theorem Chip.putTrunk_stn (t : Nat) (v : Trunk) : (Chip.putTrunk t v c).stn = c.stn := rfl
@[simp] theorem Chip.putTrunk_prt (t : Nat) (v : Trunk) : (Chip.putTrunk t v c).prt = c.prt := rfl
@[simp] theorem Chip.putTrunk_rct (t : Nat) (v : Trunk) : (Chip.putTrunk t v c).rct = c.rct := rfl
@[simp] theorem Chip.putTrunk_evt (t : Nat) (v : Trunk) : (Chip.putTrunk t v c).evt = c.evt := rfl

@[simp] theorem Chip.putJob_resetAsserted (j : Nat) (v : Job) : (Chip.putJob j v c).resetAsserted = c.resetAsserted := rfl
@[simp] theorem Chip.putJob_cab (j : Nat) (v : Job) : (Chip.putJob j v c).cab = c.cab := rfl
@[simp] theorem Chip.putJob_pins (j : Nat) (v : Job) : (Chip.putJob j v c).pins = c.pins := rfl
@[simp] theorem Chip.putJob_path (j : Nat) (v : Job) : (Chip.putJob j v c).path = c.path := rfl
@[simp] theorem Chip.putJob_ctl (j : Nat) (v : Job) : (Chip.putJob j v c).ctl = c.ctl := rfl
@[simp] theorem Chip.putJob_frm (j : Nat) (v : Job) : (Chip.putJob j v c).frm = c.frm := rfl
@[simp] theorem Chip.putJob_stn (j : Nat) (v : Job) : (Chip.putJob j v c).stn = c.stn := rfl
@[simp] theorem Chip.putJob_hlth (j : Nat) (v : Job) : (Chip.putJob j v c).hlth = c.hlth := rfl
@[simp] theorem Chip.putJob_rct (j : Nat) (v : Job) : (Chip.putJob j v c).rct = c.rct := rfl
@[simp] theorem Chip.putJob_evt (j : Nat) (v : Job) : (Chip.putJob j v c).evt = c.evt := rfl

@[simp] theorem Chip.putSpool_resetAsserted (i : Nat) (v : Option SpoolEntry) : (Chip.putSpool i v c).resetAsserted = c.resetAsserted := rfl
@[simp] theorem Chip.putSpool_cab (i : Nat) (v : Option SpoolEntry) : (Chip.putSpool i v c).cab = c.cab := rfl
@[simp] theorem Chip.putSpool_pins (i : Nat) (v : Option SpoolEntry) : (Chip.putSpool i v c).pins = c.pins := rfl
@[simp] theorem Chip.putSpool_path (i : Nat) (v : Option SpoolEntry) : (Chip.putSpool i v c).path = c.path := rfl
@[simp] theorem Chip.putSpool_ctl (i : Nat) (v : Option SpoolEntry) : (Chip.putSpool i v c).ctl = c.ctl := rfl
@[simp] theorem Chip.putSpool_frm (i : Nat) (v : Option SpoolEntry) : (Chip.putSpool i v c).frm = c.frm := rfl
@[simp] theorem Chip.putSpool_stn (i : Nat) (v : Option SpoolEntry) : (Chip.putSpool i v c).stn = c.stn := rfl
@[simp] theorem Chip.putSpool_hlth (i : Nat) (v : Option SpoolEntry) : (Chip.putSpool i v c).hlth = c.hlth := rfl
@[simp] theorem Chip.putSpool_rct (i : Nat) (v : Option SpoolEntry) : (Chip.putSpool i v c).rct = c.rct := rfl
@[simp] theorem Chip.putSpool_evt (i : Nat) (v : Option SpoolEntry) : (Chip.putSpool i v c).evt = c.evt := rfl

@[simp] theorem Chip.putPrinter_resetAsserted (p : Nat) (v : Printer) : (Chip.putPrinter p v c).resetAsserted = c.resetAsserted := rfl
@[simp] theorem Chip.putPrinter_cab (p : Nat) (v : Printer) : (Chip.putPrinter p v c).cab = c.cab := rfl
@[simp] theorem Chip.putPrinter_pins (p : Nat) (v : Printer) : (Chip.putPrinter p v c).pins = c.pins := rfl
@[simp] theorem Chip.putPrinter_path (p : Nat) (v : Printer) : (Chip.putPrinter p v c).path = c.path := rfl
@[simp] theorem Chip.putPrinter_ctl (p : Nat) (v : Printer) : (Chip.putPrinter p v c).ctl = c.ctl := rfl
@[simp] theorem Chip.putPrinter_frm (p : Nat) (v : Printer) : (Chip.putPrinter p v c).frm = c.frm := rfl
@[simp] theorem Chip.putPrinter_stn (p : Nat) (v : Printer) : (Chip.putPrinter p v c).stn = c.stn := rfl
@[simp] theorem Chip.putPrinter_hlth (p : Nat) (v : Printer) : (Chip.putPrinter p v c).hlth = c.hlth := rfl
@[simp] theorem Chip.putPrinter_rct (p : Nat) (v : Printer) : (Chip.putPrinter p v c).rct = c.rct := rfl
@[simp] theorem Chip.putPrinter_evt (p : Nat) (v : Printer) : (Chip.putPrinter p v c).evt = c.evt := rfl

@[simp] theorem Chip.putToggle_resetAsserted (k : Nat) (v : Bool) : (Chip.putToggle k v c).resetAsserted = c.resetAsserted := rfl
@[simp] theorem Chip.putToggle_cab (k : Nat) (v : Bool) : (Chip.putToggle k v c).cab = c.cab := rfl
@[simp] theorem Chip.putToggle_pins (k : Nat) (v : Bool) : (Chip.putToggle k v c).pins = c.pins := rfl
@[simp] theorem Chip.putToggle_path (k : Nat) (v : Bool) : (Chip.putToggle k v c).path = c.path := rfl
@[simp] theorem Chip.putToggle_ctl (k : Nat) (v : Bool) : (Chip.putToggle k v c).ctl = c.ctl := rfl
@[simp] theorem Chip.putToggle_frm (k : Nat) (v : Bool) : (Chip.putToggle k v c).frm = c.frm := rfl
@[simp] theorem Chip.putToggle_stn (k : Nat) (v : Bool) : (Chip.putToggle k v c).stn = c.stn := rfl
@[simp] theorem Chip.putToggle_hlth (k : Nat) (v : Bool) : (Chip.putToggle k v c).hlth = c.hlth := rfl
@[simp] theorem Chip.putToggle_rct (k : Nat) (v : Bool) : (Chip.putToggle k v c).rct = c.rct := rfl
@[simp] theorem Chip.putToggle_evt (k : Nat) (v : Bool) : (Chip.putToggle k v c).evt = c.evt := rfl

@[simp] theorem Chip.putDesc_resetAsserted (p i : Nat) (v : Desc) : (Chip.putDesc p i v c).resetAsserted = c.resetAsserted := rfl
@[simp] theorem Chip.putDesc_cab (p i : Nat) (v : Desc) : (Chip.putDesc p i v c).cab = c.cab := rfl
@[simp] theorem Chip.putDesc_pins (p i : Nat) (v : Desc) : (Chip.putDesc p i v c).pins = c.pins := rfl
@[simp] theorem Chip.putDesc_path (p i : Nat) (v : Desc) : (Chip.putDesc p i v c).path = c.path := rfl
@[simp] theorem Chip.putDesc_ctl (p i : Nat) (v : Desc) : (Chip.putDesc p i v c).ctl = c.ctl := rfl
@[simp] theorem Chip.putDesc_frm (p i : Nat) (v : Desc) : (Chip.putDesc p i v c).frm = c.frm := rfl
@[simp] theorem Chip.putDesc_stn (p i : Nat) (v : Desc) : (Chip.putDesc p i v c).stn = c.stn := rfl
@[simp] theorem Chip.putDesc_hlth (p i : Nat) (v : Desc) : (Chip.putDesc p i v c).hlth = c.hlth := rfl
@[simp] theorem Chip.putDesc_rct (p i : Nat) (v : Desc) : (Chip.putDesc p i v c).rct = c.rct := rfl
@[simp] theorem Chip.putDesc_evt (p i : Nat) (v : Desc) : (Chip.putDesc p i v c).evt = c.evt := rfl

@[simp] theorem Chip.putTimer_resetAsserted (k : Nat) (v : Timer) : (Chip.putTimer k v c).resetAsserted = c.resetAsserted := rfl
@[simp] theorem Chip.putTimer_cab (k : Nat) (v : Timer) : (Chip.putTimer k v c).cab = c.cab := rfl
@[simp] theorem Chip.putTimer_pins (k : Nat) (v : Timer) : (Chip.putTimer k v c).pins = c.pins := rfl
@[simp] theorem Chip.putTimer_path (k : Nat) (v : Timer) : (Chip.putTimer k v c).path = c.path := rfl
@[simp] theorem Chip.putTimer_ctl (k : Nat) (v : Timer) : (Chip.putTimer k v c).ctl = c.ctl := rfl
@[simp] theorem Chip.putTimer_frm (k : Nat) (v : Timer) : (Chip.putTimer k v c).frm = c.frm := rfl
@[simp] theorem Chip.putTimer_stn (k : Nat) (v : Timer) : (Chip.putTimer k v c).stn = c.stn := rfl
@[simp] theorem Chip.putTimer_hlth (k : Nat) (v : Timer) : (Chip.putTimer k v c).hlth = c.hlth := rfl
@[simp] theorem Chip.putTimer_prt (k : Nat) (v : Timer) : (Chip.putTimer k v c).prt = c.prt := rfl
@[simp] theorem Chip.putTimer_evt (k : Nat) (v : Timer) : (Chip.putTimer k v c).evt = c.evt := rfl

@[simp] theorem Chip.putLine_resetAsserted (l : Nat) (v : Line) : (Chip.putLine l v c).resetAsserted = c.resetAsserted := rfl
@[simp] theorem Chip.putLine_cab (l : Nat) (v : Line) : (Chip.putLine l v c).cab = c.cab := rfl
@[simp] theorem Chip.putLine_pins (l : Nat) (v : Line) : (Chip.putLine l v c).pins = c.pins := rfl
@[simp] theorem Chip.putLine_path (l : Nat) (v : Line) : (Chip.putLine l v c).path = c.path := rfl
@[simp] theorem Chip.putLine_ctl (l : Nat) (v : Line) : (Chip.putLine l v c).ctl = c.ctl := rfl
@[simp] theorem Chip.putLine_frm (l : Nat) (v : Line) : (Chip.putLine l v c).frm = c.frm := rfl
@[simp] theorem Chip.putLine_stn (l : Nat) (v : Line) : (Chip.putLine l v c).stn = c.stn := rfl
@[simp] theorem Chip.putLine_hlth (l : Nat) (v : Line) : (Chip.putLine l v c).hlth = c.hlth := rfl
@[simp] theorem Chip.putLine_prt (l : Nat) (v : Line) : (Chip.putLine l v c).prt = c.prt := rfl
@[simp] theorem Chip.putLine_evt (l : Nat) (v : Line) : (Chip.putLine l v c).evt = c.evt := rfl

@[simp] theorem Chip.putReaction_resetAsserted (r : Nat) (v : ReactionRec) : (Chip.putReaction r v c).resetAsserted = c.resetAsserted := rfl
@[simp] theorem Chip.putReaction_cab (r : Nat) (v : ReactionRec) : (Chip.putReaction r v c).cab = c.cab := rfl
@[simp] theorem Chip.putReaction_pins (r : Nat) (v : ReactionRec) : (Chip.putReaction r v c).pins = c.pins := rfl
@[simp] theorem Chip.putReaction_path (r : Nat) (v : ReactionRec) : (Chip.putReaction r v c).path = c.path := rfl
@[simp] theorem Chip.putReaction_ctl (r : Nat) (v : ReactionRec) : (Chip.putReaction r v c).ctl = c.ctl := rfl
@[simp] theorem Chip.putReaction_frm (r : Nat) (v : ReactionRec) : (Chip.putReaction r v c).frm = c.frm := rfl
@[simp] theorem Chip.putReaction_stn (r : Nat) (v : ReactionRec) : (Chip.putReaction r v c).stn = c.stn := rfl
@[simp] theorem Chip.putReaction_hlth (r : Nat) (v : ReactionRec) : (Chip.putReaction r v c).hlth = c.hlth := rfl
@[simp] theorem Chip.putReaction_prt (r : Nat) (v : ReactionRec) : (Chip.putReaction r v c).prt = c.prt := rfl
@[simp] theorem Chip.putReaction_evt (r : Nat) (v : ReactionRec) : (Chip.putReaction r v c).evt = c.evt := rfl

@[simp] theorem Chip.putPrinterRec_resetAsserted (p : Nat) (v : PrinterRec) : (Chip.putPrinterRec p v c).resetAsserted = c.resetAsserted := rfl
@[simp] theorem Chip.putPrinterRec_cab (p : Nat) (v : PrinterRec) : (Chip.putPrinterRec p v c).cab = c.cab := rfl
@[simp] theorem Chip.putPrinterRec_pins (p : Nat) (v : PrinterRec) : (Chip.putPrinterRec p v c).pins = c.pins := rfl
@[simp] theorem Chip.putPrinterRec_path (p : Nat) (v : PrinterRec) : (Chip.putPrinterRec p v c).path = c.path := rfl
@[simp] theorem Chip.putPrinterRec_frm (p : Nat) (v : PrinterRec) : (Chip.putPrinterRec p v c).frm = c.frm := rfl
@[simp] theorem Chip.putPrinterRec_stn (p : Nat) (v : PrinterRec) : (Chip.putPrinterRec p v c).stn = c.stn := rfl
@[simp] theorem Chip.putPrinterRec_hlth (p : Nat) (v : PrinterRec) : (Chip.putPrinterRec p v c).hlth = c.hlth := rfl
@[simp] theorem Chip.putPrinterRec_prt (p : Nat) (v : PrinterRec) : (Chip.putPrinterRec p v c).prt = c.prt := rfl
@[simp] theorem Chip.putPrinterRec_rct (p : Nat) (v : PrinterRec) : (Chip.putPrinterRec p v c).rct = c.rct := rfl
@[simp] theorem Chip.putPrinterRec_evt (p : Nat) (v : PrinterRec) : (Chip.putPrinterRec p v c).evt = c.evt := rfl

@[simp] theorem Chip.putAwaitingPrinter_resetAsserted (p : Nat) (v : Option PrinterRec) : (Chip.putAwaitingPrinter p v c).resetAsserted = c.resetAsserted := rfl
@[simp] theorem Chip.putAwaitingPrinter_cab (p : Nat) (v : Option PrinterRec) : (Chip.putAwaitingPrinter p v c).cab = c.cab := rfl
@[simp] theorem Chip.putAwaitingPrinter_pins (p : Nat) (v : Option PrinterRec) : (Chip.putAwaitingPrinter p v c).pins = c.pins := rfl
@[simp] theorem Chip.putAwaitingPrinter_path (p : Nat) (v : Option PrinterRec) : (Chip.putAwaitingPrinter p v c).path = c.path := rfl
@[simp] theorem Chip.putAwaitingPrinter_frm (p : Nat) (v : Option PrinterRec) : (Chip.putAwaitingPrinter p v c).frm = c.frm := rfl
@[simp] theorem Chip.putAwaitingPrinter_stn (p : Nat) (v : Option PrinterRec) : (Chip.putAwaitingPrinter p v c).stn = c.stn := rfl
@[simp] theorem Chip.putAwaitingPrinter_hlth (p : Nat) (v : Option PrinterRec) : (Chip.putAwaitingPrinter p v c).hlth = c.hlth := rfl
@[simp] theorem Chip.putAwaitingPrinter_prt (p : Nat) (v : Option PrinterRec) : (Chip.putAwaitingPrinter p v c).prt = c.prt := rfl
@[simp] theorem Chip.putAwaitingPrinter_rct (p : Nat) (v : Option PrinterRec) : (Chip.putAwaitingPrinter p v c).rct = c.rct := rfl
@[simp] theorem Chip.putAwaitingPrinter_evt (p : Nat) (v : Option PrinterRec) : (Chip.putAwaitingPrinter p v c).evt = c.evt := rfl

@[simp] theorem Chip.stage_resetAsserted (k : Nat) (v : Word) : (Chip.stage k v c).resetAsserted = c.resetAsserted := rfl
@[simp] theorem Chip.stage_cab (k : Nat) (v : Word) : (Chip.stage k v c).cab = c.cab := rfl
@[simp] theorem Chip.stage_pins (k : Nat) (v : Word) : (Chip.stage k v c).pins = c.pins := rfl
@[simp] theorem Chip.stage_path (k : Nat) (v : Word) : (Chip.stage k v c).path = c.path := rfl
@[simp] theorem Chip.stage_frm (k : Nat) (v : Word) : (Chip.stage k v c).frm = c.frm := rfl
@[simp] theorem Chip.stage_stn (k : Nat) (v : Word) : (Chip.stage k v c).stn = c.stn := rfl
@[simp] theorem Chip.stage_hlth (k : Nat) (v : Word) : (Chip.stage k v c).hlth = c.hlth := rfl
@[simp] theorem Chip.stage_prt (k : Nat) (v : Word) : (Chip.stage k v c).prt = c.prt := rfl
@[simp] theorem Chip.stage_rct (k : Nat) (v : Word) : (Chip.stage k v c).rct = c.rct := rfl
@[simp] theorem Chip.stage_evt (k : Nat) (v : Word) : (Chip.stage k v c).evt = c.evt := rfl

@[simp] theorem Chip.setMode_resetAsserted (m : Mode) : (Chip.setMode m c).resetAsserted = c.resetAsserted := rfl
@[simp] theorem Chip.setMode_cab (m : Mode) : (Chip.setMode m c).cab = c.cab := rfl
@[simp] theorem Chip.setMode_pins (m : Mode) : (Chip.setMode m c).pins = c.pins := rfl
@[simp] theorem Chip.setMode_path (m : Mode) : (Chip.setMode m c).path = c.path := rfl
@[simp] theorem Chip.setMode_frm (m : Mode) : (Chip.setMode m c).frm = c.frm := rfl
@[simp] theorem Chip.setMode_stn (m : Mode) : (Chip.setMode m c).stn = c.stn := rfl
@[simp] theorem Chip.setMode_hlth (m : Mode) : (Chip.setMode m c).hlth = c.hlth := rfl
@[simp] theorem Chip.setMode_prt (m : Mode) : (Chip.setMode m c).prt = c.prt := rfl
@[simp] theorem Chip.setMode_rct (m : Mode) : (Chip.setMode m c).rct = c.rct := rfl
@[simp] theorem Chip.setMode_evt (m : Mode) : (Chip.setMode m c).evt = c.evt := rfl

@[simp] theorem Chip.setCommand_resetAsserted (v : Option Command) : (Chip.setCommand v c).resetAsserted = c.resetAsserted := rfl
@[simp] theorem Chip.setCommand_cab (v : Option Command) : (Chip.setCommand v c).cab = c.cab := rfl
@[simp] theorem Chip.setCommand_pins (v : Option Command) : (Chip.setCommand v c).pins = c.pins := rfl
@[simp] theorem Chip.setCommand_path (v : Option Command) : (Chip.setCommand v c).path = c.path := rfl
@[simp] theorem Chip.setCommand_frm (v : Option Command) : (Chip.setCommand v c).frm = c.frm := rfl
@[simp] theorem Chip.setCommand_stn (v : Option Command) : (Chip.setCommand v c).stn = c.stn := rfl
@[simp] theorem Chip.setCommand_hlth (v : Option Command) : (Chip.setCommand v c).hlth = c.hlth := rfl
@[simp] theorem Chip.setCommand_prt (v : Option Command) : (Chip.setCommand v c).prt = c.prt := rfl
@[simp] theorem Chip.setCommand_rct (v : Option Command) : (Chip.setCommand v c).rct = c.rct := rfl
@[simp] theorem Chip.setCommand_evt (v : Option Command) : (Chip.setCommand v c).evt = c.evt := rfl

@[simp] theorem Chip.putCtx_resetAsserted (e : Engine) (v : Ctx) : (Chip.putCtx e v c).resetAsserted = c.resetAsserted := by
  cases e <;> rfl
@[simp] theorem Chip.putCtx_cab (e : Engine) (v : Ctx) : (Chip.putCtx e v c).cab = c.cab := by
  cases e <;> rfl
@[simp] theorem Chip.putCtx_pins (e : Engine) (v : Ctx) : (Chip.putCtx e v c).pins = c.pins := by
  cases e <;> rfl
@[simp] theorem Chip.putCtx_path (e : Engine) (v : Ctx) : (Chip.putCtx e v c).path = c.path := by
  cases e <;> rfl
@[simp] theorem Chip.putCtx_ctl (e : Engine) (v : Ctx) : (Chip.putCtx e v c).ctl = c.ctl := by
  cases e <;> rfl
@[simp] theorem Chip.putCtx_stn (e : Engine) (v : Ctx) : (Chip.putCtx e v c).stn = c.stn := by
  cases e <;> rfl
@[simp] theorem Chip.putCtx_hlth (e : Engine) (v : Ctx) : (Chip.putCtx e v c).hlth = c.hlth := by
  cases e <;> rfl
@[simp] theorem Chip.putCtx_prt (e : Engine) (v : Ctx) : (Chip.putCtx e v c).prt = c.prt := by
  cases e <;> rfl
@[simp] theorem Chip.putCtx_rct (e : Engine) (v : Ctx) : (Chip.putCtx e v c).rct = c.rct := by
  cases e <;> rfl
@[simp] theorem Chip.putCtx_evt (e : Engine) (v : Ctx) : (Chip.putCtx e v c).evt = c.evt := by
  cases e <;> rfl

@[simp] theorem Chip.putHeld_resetAsserted (e : Engine) (v : List Slot) : (Chip.putHeld e v c).resetAsserted = c.resetAsserted := by
  cases e <;> rfl
@[simp] theorem Chip.putHeld_cab (e : Engine) (v : List Slot) : (Chip.putHeld e v c).cab = c.cab := by
  cases e <;> rfl
@[simp] theorem Chip.putHeld_pins (e : Engine) (v : List Slot) : (Chip.putHeld e v c).pins = c.pins := by
  cases e <;> rfl
@[simp] theorem Chip.putHeld_path (e : Engine) (v : List Slot) : (Chip.putHeld e v c).path = c.path := by
  cases e <;> rfl
@[simp] theorem Chip.putHeld_ctl (e : Engine) (v : List Slot) : (Chip.putHeld e v c).ctl = c.ctl := by
  cases e <;> rfl
@[simp] theorem Chip.putHeld_stn (e : Engine) (v : List Slot) : (Chip.putHeld e v c).stn = c.stn := by
  cases e <;> rfl
@[simp] theorem Chip.putHeld_hlth (e : Engine) (v : List Slot) : (Chip.putHeld e v c).hlth = c.hlth := by
  cases e <;> rfl
@[simp] theorem Chip.putHeld_prt (e : Engine) (v : List Slot) : (Chip.putHeld e v c).prt = c.prt := by
  cases e <;> rfl
@[simp] theorem Chip.putHeld_rct (e : Engine) (v : List Slot) : (Chip.putHeld e v c).rct = c.rct := by
  cases e <;> rfl
@[simp] theorem Chip.putHeld_evt (e : Engine) (v : List Slot) : (Chip.putHeld e v c).evt = c.evt := by
  cases e <;> rfl

@[simp] theorem Chip.putWaiting_resetAsserted (o : Owner) (v : List Entry) : (Chip.putWaiting o v c).resetAsserted = c.resetAsserted := by
  cases o <;> rfl
@[simp] theorem Chip.putWaiting_cab (o : Owner) (v : List Entry) : (Chip.putWaiting o v c).cab = c.cab := by
  cases o <;> rfl
@[simp] theorem Chip.putWaiting_pins (o : Owner) (v : List Entry) : (Chip.putWaiting o v c).pins = c.pins := by
  cases o <;> rfl
@[simp] theorem Chip.putWaiting_ctl (o : Owner) (v : List Entry) : (Chip.putWaiting o v c).ctl = c.ctl := by
  cases o <;> rfl
@[simp] theorem Chip.putWaiting_frm (o : Owner) (v : List Entry) : (Chip.putWaiting o v c).frm = c.frm := by
  cases o <;> rfl
@[simp] theorem Chip.putWaiting_stn (o : Owner) (v : List Entry) : (Chip.putWaiting o v c).stn = c.stn := by
  cases o <;> rfl
@[simp] theorem Chip.putWaiting_hlth (o : Owner) (v : List Entry) : (Chip.putWaiting o v c).hlth = c.hlth := by
  cases o <;> rfl
@[simp] theorem Chip.putWaiting_prt (o : Owner) (v : List Entry) : (Chip.putWaiting o v c).prt = c.prt := by
  cases o <;> rfl
@[simp] theorem Chip.putWaiting_rct (o : Owner) (v : List Entry) : (Chip.putWaiting o v c).rct = c.rct := by
  cases o <;> rfl
@[simp] theorem Chip.putWaiting_evt (o : Owner) (v : List Entry) : (Chip.putWaiting o v c).evt = c.evt := by
  cases o <;> rfl

@[simp] theorem Chip.stage_ctl_unit (k : Nat) (v : Word) :
    (Chip.stage k v c).ctl.unit = c.ctl.unit := rfl
@[simp] theorem Chip.stage_ctl_unitCommitted (k : Nat) (v : Word) :
    (Chip.stage k v c).ctl.unitCommitted = c.ctl.unitCommitted := rfl
@[simp] theorem Chip.stage_ctl_coaxRing (k : Nat) (v : Word) :
    (Chip.stage k v c).ctl.coaxRing = c.ctl.coaxRing := rfl
@[simp] theorem Chip.stage_ctl_pairRing (k : Nat) (v : Word) :
    (Chip.stage k v c).ctl.pairRing = c.ctl.pairRing := rfl
@[simp] theorem Chip.stage_ctl_transmitRing (k : Nat) (v : Word) :
    (Chip.stage k v c).ctl.transmitRing = c.ctl.transmitRing := rfl
@[simp] theorem Chip.stage_ctl_health (k : Nat) (v : Word) :
    (Chip.stage k v c).ctl.health = c.ctl.health := rfl
@[simp] theorem Chip.stage_ctl_print (k : Nat) (v : Word) :
    (Chip.stage k v c).ctl.print = c.ctl.print := rfl
@[simp] theorem Chip.stage_ctl_aging (k : Nat) (v : Word) :
    (Chip.stage k v c).ctl.aging = c.ctl.aging := rfl
@[simp] theorem Chip.stage_ctl_printers (k : Nat) (v : Word) :
    (Chip.stage k v c).ctl.printers = c.ctl.printers := rfl
@[simp] theorem Chip.stage_ctl_gateClosed (k : Nat) (v : Word) :
    (Chip.stage k v c).ctl.gateClosed = c.ctl.gateClosed := rfl
@[simp] theorem Chip.stage_ctl_noticeMask (k : Nat) (v : Word) :
    (Chip.stage k v c).ctl.noticeMask = c.ctl.noticeMask := rfl
@[simp] theorem Chip.stage_ctl_recordMask (k : Nat) (v : Word) :
    (Chip.stage k v c).ctl.recordMask = c.ctl.recordMask := rfl
@[simp] theorem Chip.stage_ctl_pendingHealth (k : Nat) (v : Word) :
    (Chip.stage k v c).ctl.pendingHealth = c.ctl.pendingHealth := rfl
@[simp] theorem Chip.stage_ctl_pendingPrint (k : Nat) (v : Word) :
    (Chip.stage k v c).ctl.pendingPrint = c.ctl.pendingPrint := rfl
@[simp] theorem Chip.stage_ctl_pendingAging (k : Nat) (v : Word) :
    (Chip.stage k v c).ctl.pendingAging = c.ctl.pendingAging := rfl
@[simp] theorem Chip.stage_ctl_pendingLines (k : Nat) (v : Word) :
    (Chip.stage k v c).ctl.pendingLines = c.ctl.pendingLines := rfl
@[simp] theorem Chip.stage_ctl_pendingTimers (k : Nat) (v : Word) :
    (Chip.stage k v c).ctl.pendingTimers = c.ctl.pendingTimers := rfl
@[simp] theorem Chip.stage_ctl_pendingPrinters (k : Nat) (v : Word) :
    (Chip.stage k v c).ctl.pendingPrinters = c.ctl.pendingPrinters := rfl
@[simp] theorem Chip.stage_ctl_pendingReactions (k : Nat) (v : Word) :
    (Chip.stage k v c).ctl.pendingReactions = c.ctl.pendingReactions := rfl
@[simp] theorem Chip.stage_ctl_awaitingHealth (k : Nat) (v : Word) :
    (Chip.stage k v c).ctl.awaitingHealth = c.ctl.awaitingHealth := rfl
@[simp] theorem Chip.stage_ctl_awaitingPrinters (k : Nat) (v : Word) :
    (Chip.stage k v c).ctl.awaitingPrinters = c.ctl.awaitingPrinters := rfl
@[simp] theorem Chip.stage_ctl_mode (k : Nat) (v : Word) :
    (Chip.stage k v c).ctl.mode = c.ctl.mode := rfl
@[simp] theorem Chip.stage_ctl_command (k : Nat) (v : Word) :
    (Chip.stage k v c).ctl.command = c.ctl.command := rfl

@[simp] theorem Chip.setMode_ctl_staging (m : Mode) :
    (Chip.setMode m c).ctl.staging = c.ctl.staging := rfl
@[simp] theorem Chip.setMode_ctl_unit (m : Mode) :
    (Chip.setMode m c).ctl.unit = c.ctl.unit := rfl
@[simp] theorem Chip.setMode_ctl_unitCommitted (m : Mode) :
    (Chip.setMode m c).ctl.unitCommitted = c.ctl.unitCommitted := rfl
@[simp] theorem Chip.setMode_ctl_coaxRing (m : Mode) :
    (Chip.setMode m c).ctl.coaxRing = c.ctl.coaxRing := rfl
@[simp] theorem Chip.setMode_ctl_pairRing (m : Mode) :
    (Chip.setMode m c).ctl.pairRing = c.ctl.pairRing := rfl
@[simp] theorem Chip.setMode_ctl_transmitRing (m : Mode) :
    (Chip.setMode m c).ctl.transmitRing = c.ctl.transmitRing := rfl
@[simp] theorem Chip.setMode_ctl_health (m : Mode) :
    (Chip.setMode m c).ctl.health = c.ctl.health := rfl
@[simp] theorem Chip.setMode_ctl_print (m : Mode) :
    (Chip.setMode m c).ctl.print = c.ctl.print := rfl
@[simp] theorem Chip.setMode_ctl_aging (m : Mode) :
    (Chip.setMode m c).ctl.aging = c.ctl.aging := rfl
@[simp] theorem Chip.setMode_ctl_printers (m : Mode) :
    (Chip.setMode m c).ctl.printers = c.ctl.printers := rfl
@[simp] theorem Chip.setMode_ctl_gateClosed (m : Mode) :
    (Chip.setMode m c).ctl.gateClosed = c.ctl.gateClosed := rfl
@[simp] theorem Chip.setMode_ctl_noticeMask (m : Mode) :
    (Chip.setMode m c).ctl.noticeMask = c.ctl.noticeMask := rfl
@[simp] theorem Chip.setMode_ctl_recordMask (m : Mode) :
    (Chip.setMode m c).ctl.recordMask = c.ctl.recordMask := rfl
@[simp] theorem Chip.setMode_ctl_pendingHealth (m : Mode) :
    (Chip.setMode m c).ctl.pendingHealth = c.ctl.pendingHealth := rfl
@[simp] theorem Chip.setMode_ctl_pendingPrint (m : Mode) :
    (Chip.setMode m c).ctl.pendingPrint = c.ctl.pendingPrint := rfl
@[simp] theorem Chip.setMode_ctl_pendingAging (m : Mode) :
    (Chip.setMode m c).ctl.pendingAging = c.ctl.pendingAging := rfl
@[simp] theorem Chip.setMode_ctl_pendingLines (m : Mode) :
    (Chip.setMode m c).ctl.pendingLines = c.ctl.pendingLines := rfl
@[simp] theorem Chip.setMode_ctl_pendingTimers (m : Mode) :
    (Chip.setMode m c).ctl.pendingTimers = c.ctl.pendingTimers := rfl
@[simp] theorem Chip.setMode_ctl_pendingPrinters (m : Mode) :
    (Chip.setMode m c).ctl.pendingPrinters = c.ctl.pendingPrinters := rfl
@[simp] theorem Chip.setMode_ctl_pendingReactions (m : Mode) :
    (Chip.setMode m c).ctl.pendingReactions = c.ctl.pendingReactions := rfl
@[simp] theorem Chip.setMode_ctl_awaitingHealth (m : Mode) :
    (Chip.setMode m c).ctl.awaitingHealth = c.ctl.awaitingHealth := rfl
@[simp] theorem Chip.setMode_ctl_awaitingPrinters (m : Mode) :
    (Chip.setMode m c).ctl.awaitingPrinters = c.ctl.awaitingPrinters := rfl
@[simp] theorem Chip.setMode_mode (m : Mode) : (Chip.setMode m c).ctl.mode = m := rfl
@[simp] theorem Chip.setMode_ctl_command (m : Mode) :
    (Chip.setMode m c).ctl.command = c.ctl.command := rfl

@[simp] theorem Chip.setCommand_ctl_staging (v : Option Command) :
    (Chip.setCommand v c).ctl.staging = c.ctl.staging := rfl
@[simp] theorem Chip.setCommand_ctl_unit (v : Option Command) :
    (Chip.setCommand v c).ctl.unit = c.ctl.unit := rfl
@[simp] theorem Chip.setCommand_ctl_unitCommitted (v : Option Command) :
    (Chip.setCommand v c).ctl.unitCommitted = c.ctl.unitCommitted := rfl
@[simp] theorem Chip.setCommand_ctl_coaxRing (v : Option Command) :
    (Chip.setCommand v c).ctl.coaxRing = c.ctl.coaxRing := rfl
@[simp] theorem Chip.setCommand_ctl_pairRing (v : Option Command) :
    (Chip.setCommand v c).ctl.pairRing = c.ctl.pairRing := rfl
@[simp] theorem Chip.setCommand_ctl_transmitRing (v : Option Command) :
    (Chip.setCommand v c).ctl.transmitRing = c.ctl.transmitRing := rfl
@[simp] theorem Chip.setCommand_ctl_health (v : Option Command) :
    (Chip.setCommand v c).ctl.health = c.ctl.health := rfl
@[simp] theorem Chip.setCommand_ctl_print (v : Option Command) :
    (Chip.setCommand v c).ctl.print = c.ctl.print := rfl
@[simp] theorem Chip.setCommand_ctl_aging (v : Option Command) :
    (Chip.setCommand v c).ctl.aging = c.ctl.aging := rfl
@[simp] theorem Chip.setCommand_ctl_printers (v : Option Command) :
    (Chip.setCommand v c).ctl.printers = c.ctl.printers := rfl
@[simp] theorem Chip.setCommand_ctl_gateClosed (v : Option Command) :
    (Chip.setCommand v c).ctl.gateClosed = c.ctl.gateClosed := rfl
@[simp] theorem Chip.setCommand_ctl_noticeMask (v : Option Command) :
    (Chip.setCommand v c).ctl.noticeMask = c.ctl.noticeMask := rfl
@[simp] theorem Chip.setCommand_ctl_recordMask (v : Option Command) :
    (Chip.setCommand v c).ctl.recordMask = c.ctl.recordMask := rfl
@[simp] theorem Chip.setCommand_ctl_pendingHealth (v : Option Command) :
    (Chip.setCommand v c).ctl.pendingHealth = c.ctl.pendingHealth := rfl
@[simp] theorem Chip.setCommand_ctl_pendingPrint (v : Option Command) :
    (Chip.setCommand v c).ctl.pendingPrint = c.ctl.pendingPrint := rfl
@[simp] theorem Chip.setCommand_ctl_pendingAging (v : Option Command) :
    (Chip.setCommand v c).ctl.pendingAging = c.ctl.pendingAging := rfl
@[simp] theorem Chip.setCommand_ctl_pendingLines (v : Option Command) :
    (Chip.setCommand v c).ctl.pendingLines = c.ctl.pendingLines := rfl
@[simp] theorem Chip.setCommand_ctl_pendingTimers (v : Option Command) :
    (Chip.setCommand v c).ctl.pendingTimers = c.ctl.pendingTimers := rfl
@[simp] theorem Chip.setCommand_ctl_pendingPrinters (v : Option Command) :
    (Chip.setCommand v c).ctl.pendingPrinters = c.ctl.pendingPrinters := rfl
@[simp] theorem Chip.setCommand_ctl_pendingReactions (v : Option Command) :
    (Chip.setCommand v c).ctl.pendingReactions = c.ctl.pendingReactions := rfl
@[simp] theorem Chip.setCommand_ctl_awaitingHealth (v : Option Command) :
    (Chip.setCommand v c).ctl.awaitingHealth = c.ctl.awaitingHealth := rfl
@[simp] theorem Chip.setCommand_ctl_awaitingPrinters (v : Option Command) :
    (Chip.setCommand v c).ctl.awaitingPrinters = c.ctl.awaitingPrinters := rfl
@[simp] theorem Chip.setCommand_ctl_mode (v : Option Command) :
    (Chip.setCommand v c).ctl.mode = c.ctl.mode := rfl
@[simp] theorem Chip.setCommand_command (v : Option Command) : (Chip.setCommand v c).ctl.command = v := rfl

@[simp] theorem Chip.putPrinterRec_ctl_staging (p : Nat) (v : PrinterRec) :
    (Chip.putPrinterRec p v c).ctl.staging = c.ctl.staging := rfl
@[simp] theorem Chip.putPrinterRec_ctl_unit (p : Nat) (v : PrinterRec) :
    (Chip.putPrinterRec p v c).ctl.unit = c.ctl.unit := rfl
@[simp] theorem Chip.putPrinterRec_ctl_unitCommitted (p : Nat) (v : PrinterRec) :
    (Chip.putPrinterRec p v c).ctl.unitCommitted = c.ctl.unitCommitted := rfl
@[simp] theorem Chip.putPrinterRec_ctl_coaxRing (p : Nat) (v : PrinterRec) :
    (Chip.putPrinterRec p v c).ctl.coaxRing = c.ctl.coaxRing := rfl
@[simp] theorem Chip.putPrinterRec_ctl_pairRing (p : Nat) (v : PrinterRec) :
    (Chip.putPrinterRec p v c).ctl.pairRing = c.ctl.pairRing := rfl
@[simp] theorem Chip.putPrinterRec_ctl_transmitRing (p : Nat) (v : PrinterRec) :
    (Chip.putPrinterRec p v c).ctl.transmitRing = c.ctl.transmitRing := rfl
@[simp] theorem Chip.putPrinterRec_ctl_health (p : Nat) (v : PrinterRec) :
    (Chip.putPrinterRec p v c).ctl.health = c.ctl.health := rfl
@[simp] theorem Chip.putPrinterRec_ctl_print (p : Nat) (v : PrinterRec) :
    (Chip.putPrinterRec p v c).ctl.print = c.ctl.print := rfl
@[simp] theorem Chip.putPrinterRec_ctl_aging (p : Nat) (v : PrinterRec) :
    (Chip.putPrinterRec p v c).ctl.aging = c.ctl.aging := rfl
@[simp] theorem Chip.putPrinterRec_ctl_gateClosed (p : Nat) (v : PrinterRec) :
    (Chip.putPrinterRec p v c).ctl.gateClosed = c.ctl.gateClosed := rfl
@[simp] theorem Chip.putPrinterRec_ctl_noticeMask (p : Nat) (v : PrinterRec) :
    (Chip.putPrinterRec p v c).ctl.noticeMask = c.ctl.noticeMask := rfl
@[simp] theorem Chip.putPrinterRec_ctl_recordMask (p : Nat) (v : PrinterRec) :
    (Chip.putPrinterRec p v c).ctl.recordMask = c.ctl.recordMask := rfl
@[simp] theorem Chip.putPrinterRec_ctl_pendingHealth (p : Nat) (v : PrinterRec) :
    (Chip.putPrinterRec p v c).ctl.pendingHealth = c.ctl.pendingHealth := rfl
@[simp] theorem Chip.putPrinterRec_ctl_pendingPrint (p : Nat) (v : PrinterRec) :
    (Chip.putPrinterRec p v c).ctl.pendingPrint = c.ctl.pendingPrint := rfl
@[simp] theorem Chip.putPrinterRec_ctl_pendingAging (p : Nat) (v : PrinterRec) :
    (Chip.putPrinterRec p v c).ctl.pendingAging = c.ctl.pendingAging := rfl
@[simp] theorem Chip.putPrinterRec_ctl_pendingLines (p : Nat) (v : PrinterRec) :
    (Chip.putPrinterRec p v c).ctl.pendingLines = c.ctl.pendingLines := rfl
@[simp] theorem Chip.putPrinterRec_ctl_pendingTimers (p : Nat) (v : PrinterRec) :
    (Chip.putPrinterRec p v c).ctl.pendingTimers = c.ctl.pendingTimers := rfl
@[simp] theorem Chip.putPrinterRec_ctl_pendingPrinters (p : Nat) (v : PrinterRec) :
    (Chip.putPrinterRec p v c).ctl.pendingPrinters = c.ctl.pendingPrinters := rfl
@[simp] theorem Chip.putPrinterRec_ctl_pendingReactions (p : Nat) (v : PrinterRec) :
    (Chip.putPrinterRec p v c).ctl.pendingReactions = c.ctl.pendingReactions := rfl
@[simp] theorem Chip.putPrinterRec_ctl_awaitingHealth (p : Nat) (v : PrinterRec) :
    (Chip.putPrinterRec p v c).ctl.awaitingHealth = c.ctl.awaitingHealth := rfl
@[simp] theorem Chip.putPrinterRec_ctl_awaitingPrinters (p : Nat) (v : PrinterRec) :
    (Chip.putPrinterRec p v c).ctl.awaitingPrinters = c.ctl.awaitingPrinters := rfl
@[simp] theorem Chip.putPrinterRec_ctl_mode (p : Nat) (v : PrinterRec) :
    (Chip.putPrinterRec p v c).ctl.mode = c.ctl.mode := rfl
@[simp] theorem Chip.putPrinterRec_ctl_command (p : Nat) (v : PrinterRec) :
    (Chip.putPrinterRec p v c).ctl.command = c.ctl.command := rfl

@[simp] theorem Chip.putAwaitingPrinter_ctl_staging (p : Nat) (v : Option PrinterRec) :
    (Chip.putAwaitingPrinter p v c).ctl.staging = c.ctl.staging := rfl
@[simp] theorem Chip.putAwaitingPrinter_ctl_unit (p : Nat) (v : Option PrinterRec) :
    (Chip.putAwaitingPrinter p v c).ctl.unit = c.ctl.unit := rfl
@[simp] theorem Chip.putAwaitingPrinter_ctl_unitCommitted (p : Nat) (v : Option PrinterRec) :
    (Chip.putAwaitingPrinter p v c).ctl.unitCommitted = c.ctl.unitCommitted := rfl
@[simp] theorem Chip.putAwaitingPrinter_ctl_coaxRing (p : Nat) (v : Option PrinterRec) :
    (Chip.putAwaitingPrinter p v c).ctl.coaxRing = c.ctl.coaxRing := rfl
@[simp] theorem Chip.putAwaitingPrinter_ctl_pairRing (p : Nat) (v : Option PrinterRec) :
    (Chip.putAwaitingPrinter p v c).ctl.pairRing = c.ctl.pairRing := rfl
@[simp] theorem Chip.putAwaitingPrinter_ctl_transmitRing (p : Nat) (v : Option PrinterRec) :
    (Chip.putAwaitingPrinter p v c).ctl.transmitRing = c.ctl.transmitRing := rfl
@[simp] theorem Chip.putAwaitingPrinter_ctl_health (p : Nat) (v : Option PrinterRec) :
    (Chip.putAwaitingPrinter p v c).ctl.health = c.ctl.health := rfl
@[simp] theorem Chip.putAwaitingPrinter_ctl_print (p : Nat) (v : Option PrinterRec) :
    (Chip.putAwaitingPrinter p v c).ctl.print = c.ctl.print := rfl
@[simp] theorem Chip.putAwaitingPrinter_ctl_aging (p : Nat) (v : Option PrinterRec) :
    (Chip.putAwaitingPrinter p v c).ctl.aging = c.ctl.aging := rfl
@[simp] theorem Chip.putAwaitingPrinter_ctl_printers (p : Nat) (v : Option PrinterRec) :
    (Chip.putAwaitingPrinter p v c).ctl.printers = c.ctl.printers := rfl
@[simp] theorem Chip.putAwaitingPrinter_ctl_gateClosed (p : Nat) (v : Option PrinterRec) :
    (Chip.putAwaitingPrinter p v c).ctl.gateClosed = c.ctl.gateClosed := rfl
@[simp] theorem Chip.putAwaitingPrinter_ctl_noticeMask (p : Nat) (v : Option PrinterRec) :
    (Chip.putAwaitingPrinter p v c).ctl.noticeMask = c.ctl.noticeMask := rfl
@[simp] theorem Chip.putAwaitingPrinter_ctl_recordMask (p : Nat) (v : Option PrinterRec) :
    (Chip.putAwaitingPrinter p v c).ctl.recordMask = c.ctl.recordMask := rfl
@[simp] theorem Chip.putAwaitingPrinter_ctl_pendingHealth (p : Nat) (v : Option PrinterRec) :
    (Chip.putAwaitingPrinter p v c).ctl.pendingHealth = c.ctl.pendingHealth := rfl
@[simp] theorem Chip.putAwaitingPrinter_ctl_pendingPrint (p : Nat) (v : Option PrinterRec) :
    (Chip.putAwaitingPrinter p v c).ctl.pendingPrint = c.ctl.pendingPrint := rfl
@[simp] theorem Chip.putAwaitingPrinter_ctl_pendingAging (p : Nat) (v : Option PrinterRec) :
    (Chip.putAwaitingPrinter p v c).ctl.pendingAging = c.ctl.pendingAging := rfl
@[simp] theorem Chip.putAwaitingPrinter_ctl_pendingLines (p : Nat) (v : Option PrinterRec) :
    (Chip.putAwaitingPrinter p v c).ctl.pendingLines = c.ctl.pendingLines := rfl
@[simp] theorem Chip.putAwaitingPrinter_ctl_pendingTimers (p : Nat) (v : Option PrinterRec) :
    (Chip.putAwaitingPrinter p v c).ctl.pendingTimers = c.ctl.pendingTimers := rfl
@[simp] theorem Chip.putAwaitingPrinter_ctl_pendingPrinters (p : Nat) (v : Option PrinterRec) :
    (Chip.putAwaitingPrinter p v c).ctl.pendingPrinters = c.ctl.pendingPrinters := rfl
@[simp] theorem Chip.putAwaitingPrinter_ctl_pendingReactions (p : Nat) (v : Option PrinterRec) :
    (Chip.putAwaitingPrinter p v c).ctl.pendingReactions = c.ctl.pendingReactions := rfl
@[simp] theorem Chip.putAwaitingPrinter_ctl_awaitingHealth (p : Nat) (v : Option PrinterRec) :
    (Chip.putAwaitingPrinter p v c).ctl.awaitingHealth = c.ctl.awaitingHealth := rfl
@[simp] theorem Chip.putAwaitingPrinter_ctl_mode (p : Nat) (v : Option PrinterRec) :
    (Chip.putAwaitingPrinter p v c).ctl.mode = c.ctl.mode := rfl
@[simp] theorem Chip.putAwaitingPrinter_ctl_command (p : Nat) (v : Option PrinterRec) :
    (Chip.putAwaitingPrinter p v c).ctl.command = c.ctl.command := rfl

end Chip

section State

variable (s : State)

@[simp] theorem State.withChip_mem (v : Chip) : (State.withChip v s).mem = s.mem := rfl
@[simp] theorem State.withChip_dataOut (v : Chip) : (State.withChip v s).dataOut = s.dataOut := rfl
@[simp] theorem State.withChip_freeCount (v : Chip) : (State.withChip v s).freeCount = s.freeCount := rfl
@[simp] theorem State.withChip_chip (v : Chip) : (State.withChip v s).chip = v := rfl
@[simp] theorem State.withChip_pending (v : Chip) : (State.withChip v s).pending = s.pending := rfl

@[simp] theorem State.withMem_mem (v : List Host.Cell) : (State.withMem v s).mem = v := rfl
@[simp] theorem State.withMem_dataOut (v : List Host.Cell) : (State.withMem v s).dataOut = s.dataOut := rfl
@[simp] theorem State.withMem_freeCount (v : List Host.Cell) : (State.withMem v s).freeCount = s.freeCount := rfl
@[simp] theorem State.withMem_chip (v : List Host.Cell) : (State.withMem v s).chip = s.chip := rfl
@[simp] theorem State.withMem_pending (v : List Host.Cell) : (State.withMem v s).pending = s.pending := rfl

@[simp] theorem State.withData_mem (v : Word) : (State.withData v s).mem = s.mem := rfl
@[simp] theorem State.withData_dataOut (v : Word) : (State.withData v s).dataOut = v := rfl
@[simp] theorem State.withData_freeCount (v : Word) : (State.withData v s).freeCount = s.freeCount := rfl
@[simp] theorem State.withData_chip (v : Word) : (State.withData v s).chip = s.chip := rfl
@[simp] theorem State.withData_pending (v : Word) : (State.withData v s).pending = s.pending := rfl

@[simp] theorem State.onChip_mem (f : Chip → Chip) : (State.onChip f s).mem = s.mem := rfl
@[simp] theorem State.onChip_dataOut (f : Chip → Chip) : (State.onChip f s).dataOut = s.dataOut := rfl
@[simp] theorem State.onChip_freeCount (f : Chip → Chip) : (State.onChip f s).freeCount = s.freeCount := rfl
@[simp] theorem State.onChip_chip (f : Chip → Chip) : (State.onChip f s).chip = f s.chip := rfl
@[simp] theorem State.onChip_pending (f : Chip → Chip) : (State.onChip f s).pending = s.pending := rfl

@[simp] theorem State.setPins_mem (p : Octet) : (s.setPins p).mem = s.mem := rfl
@[simp] theorem State.setPins_chip (p : Octet) : (s.setPins p).chip = s.chip.withPins p := rfl
@[simp] theorem State.setPins_pending (p : Octet) : (s.setPins p).pending = s.pending := rfl
@[simp] theorem State.setPins_dataOut (p : Octet) : (s.setPins p).dataOut = s.dataOut := rfl
@[simp] theorem State.setPins_freeCount (p : Octet) : (s.setPins p).freeCount = s.freeCount := rfl

end State

end Sys2Proof.Machine
end

