-- ==== Sys2Proof/Laws/Frames.lean ====
section
/-! SUPPORT. What the shared operations over the private queue and the event unit leave as it was: one lemma
a field, for every field an operation does not write. -/

namespace Sys2Proof.Machine

/-- The control unit of `d` is that of `c`, but for the command in progress. -/
def Chip.controlKept (c d : Chip) : Prop := d.ctl = { c.ctl with command := d.ctl.command }

variable (c : Chip)

/-! #### joinQueue -/

@[simp] theorem joinQueue_resetAsserted (e : Entry) :
    (joinQueue e c).resetAsserted = c.resetAsserted := rfl
@[simp] theorem joinQueue_cab (e : Entry) : (joinQueue e c).cab = c.cab := rfl
@[simp] theorem joinQueue_pins (e : Entry) : (joinQueue e c).pins = c.pins := rfl
@[simp] theorem joinQueue_ctl (e : Entry) : (joinQueue e c).ctl = c.ctl := rfl
@[simp] theorem joinQueue_frm (e : Entry) : (joinQueue e c).frm = c.frm := rfl
@[simp] theorem joinQueue_stn (e : Entry) : (joinQueue e c).stn = c.stn := rfl
@[simp] theorem joinQueue_hlth (e : Entry) : (joinQueue e c).hlth = c.hlth := rfl
@[simp] theorem joinQueue_prt (e : Entry) : (joinQueue e c).prt = c.prt := rfl
@[simp] theorem joinQueue_rct (e : Entry) : (joinQueue e c).rct = c.rct := rfl
@[simp] theorem joinQueue_evt (e : Entry) : (joinQueue e c).evt = c.evt := rfl

/-! #### offer -/

@[simp] theorem offer_resetAsserted (e : Entry) : (offer e c).resetAsserted = c.resetAsserted := by
  unfold offer
  split <;> simp
@[simp] theorem offer_cab (e : Entry) : (offer e c).cab = c.cab := by
  unfold offer
  split <;> simp
@[simp] theorem offer_pins (e : Entry) : (offer e c).pins = c.pins := by
  unfold offer
  split <;> simp
@[simp] theorem offer_ctl (e : Entry) : (offer e c).ctl = c.ctl := by
  unfold offer
  split <;> simp
@[simp] theorem offer_frm (e : Entry) : (offer e c).frm = c.frm := by
  unfold offer
  split <;> simp
@[simp] theorem offer_stn (e : Entry) : (offer e c).stn = c.stn := by
  unfold offer
  split <;> simp
@[simp] theorem offer_hlth (e : Entry) : (offer e c).hlth = c.hlth := by
  unfold offer
  split <;> simp
@[simp] theorem offer_prt (e : Entry) : (offer e c).prt = c.prt := by
  unfold offer
  split <;> simp
@[simp] theorem offer_rct (e : Entry) : (offer e c).rct = c.rct := by
  unfold offer
  split <;> simp
@[simp] theorem offer_evt (e : Entry) : (offer e c).evt = c.evt := by
  unfold offer
  split <;> simp

/-! #### formEntry -/

@[simp] theorem formEntry_resetAsserted (o : Owner) (p : Purpose) (w : Work) :
    (formEntry o p w c).resetAsserted = c.resetAsserted := by
  simp [formEntry]
@[simp] theorem formEntry_cab (o : Owner) (p : Purpose) (w : Work) :
    (formEntry o p w c).cab = c.cab := by
  simp [formEntry]
@[simp] theorem formEntry_pins (o : Owner) (p : Purpose) (w : Work) :
    (formEntry o p w c).pins = c.pins := by
  simp [formEntry]
@[simp] theorem formEntry_ctl (o : Owner) (p : Purpose) (w : Work) :
    (formEntry o p w c).ctl = c.ctl := by
  simp [formEntry]
@[simp] theorem formEntry_frm (o : Owner) (p : Purpose) (w : Work) :
    (formEntry o p w c).frm = c.frm := by
  simp [formEntry]
@[simp] theorem formEntry_stn (o : Owner) (p : Purpose) (w : Work) :
    (formEntry o p w c).stn = c.stn := by
  simp [formEntry]
@[simp] theorem formEntry_hlth (o : Owner) (p : Purpose) (w : Work) :
    (formEntry o p w c).hlth = c.hlth := by
  simp [formEntry]
@[simp] theorem formEntry_prt (o : Owner) (p : Purpose) (w : Work) :
    (formEntry o p w c).prt = c.prt := by
  simp [formEntry]
@[simp] theorem formEntry_rct (o : Owner) (p : Purpose) (w : Work) :
    (formEntry o p w c).rct = c.rct := by
  simp [formEntry]
@[simp] theorem formEntry_evt (o : Owner) (p : Purpose) (w : Work) :
    (formEntry o p w c).evt = c.evt := by
  simp [formEntry]

/-! #### formDeposit -/

@[simp] theorem formDeposit_resetAsserted (o : Owner) (p : Purpose) (a : Nat) (ws : List Word) :
    (formDeposit o p a ws c).resetAsserted = c.resetAsserted := by
  simp [formDeposit]
@[simp] theorem formDeposit_cab (o : Owner) (p : Purpose) (a : Nat) (ws : List Word) :
    (formDeposit o p a ws c).cab = c.cab := by
  simp [formDeposit]
@[simp] theorem formDeposit_pins (o : Owner) (p : Purpose) (a : Nat) (ws : List Word) :
    (formDeposit o p a ws c).pins = c.pins := by
  simp [formDeposit]
@[simp] theorem formDeposit_ctl (o : Owner) (p : Purpose) (a : Nat) (ws : List Word) :
    (formDeposit o p a ws c).ctl = c.ctl := by
  simp [formDeposit]
@[simp] theorem formDeposit_frm (o : Owner) (p : Purpose) (a : Nat) (ws : List Word) :
    (formDeposit o p a ws c).frm = c.frm := by
  simp [formDeposit]
@[simp] theorem formDeposit_stn (o : Owner) (p : Purpose) (a : Nat) (ws : List Word) :
    (formDeposit o p a ws c).stn = c.stn := by
  simp [formDeposit]
@[simp] theorem formDeposit_hlth (o : Owner) (p : Purpose) (a : Nat) (ws : List Word) :
    (formDeposit o p a ws c).hlth = c.hlth := by
  simp [formDeposit]
@[simp] theorem formDeposit_prt (o : Owner) (p : Purpose) (a : Nat) (ws : List Word) :
    (formDeposit o p a ws c).prt = c.prt := by
  simp [formDeposit]
@[simp] theorem formDeposit_rct (o : Owner) (p : Purpose) (a : Nat) (ws : List Word) :
    (formDeposit o p a ws c).rct = c.rct := by
  simp [formDeposit]
@[simp] theorem formDeposit_evt (o : Owner) (p : Purpose) (a : Nat) (ws : List Word) :
    (formDeposit o p a ws c).evt = c.evt := by
  simp [formDeposit]

/-! #### formFetch -/

@[simp] theorem formFetch_resetAsserted (o : Owner) (p : Purpose) (a n : Nat) :
    (formFetch o p a n c).resetAsserted = c.resetAsserted := by
  simp [formFetch]
@[simp] theorem formFetch_cab (o : Owner) (p : Purpose) (a n : Nat) :
    (formFetch o p a n c).cab = c.cab := by
  simp [formFetch]
@[simp] theorem formFetch_pins (o : Owner) (p : Purpose) (a n : Nat) :
    (formFetch o p a n c).pins = c.pins := by
  simp [formFetch]
@[simp] theorem formFetch_ctl (o : Owner) (p : Purpose) (a n : Nat) :
    (formFetch o p a n c).ctl = c.ctl := by
  simp [formFetch]
@[simp] theorem formFetch_frm (o : Owner) (p : Purpose) (a n : Nat) :
    (formFetch o p a n c).frm = c.frm := by
  simp [formFetch]
@[simp] theorem formFetch_stn (o : Owner) (p : Purpose) (a n : Nat) :
    (formFetch o p a n c).stn = c.stn := by
  simp [formFetch]
@[simp] theorem formFetch_hlth (o : Owner) (p : Purpose) (a n : Nat) :
    (formFetch o p a n c).hlth = c.hlth := by
  simp [formFetch]
@[simp] theorem formFetch_prt (o : Owner) (p : Purpose) (a n : Nat) :
    (formFetch o p a n c).prt = c.prt := by
  simp [formFetch]
@[simp] theorem formFetch_rct (o : Owner) (p : Purpose) (a n : Nat) :
    (formFetch o p a n c).rct = c.rct := by
  simp [formFetch]
@[simp] theorem formFetch_evt (o : Owner) (p : Purpose) (a n : Nat) :
    (formFetch o p a n c).evt = c.evt := by
  simp [formFetch]

/-! #### givePlace -/

@[simp] theorem givePlace_resetAsserted : (givePlace c).resetAsserted = c.resetAsserted := by
  unfold givePlace
  split
  · split <;> simp
  · rfl
@[simp] theorem givePlace_cab : (givePlace c).cab = c.cab := by
  unfold givePlace
  split
  · split <;> simp
  · rfl
@[simp] theorem givePlace_pins : (givePlace c).pins = c.pins := by
  unfold givePlace
  split
  · split <;> simp
  · rfl
@[simp] theorem givePlace_ctl : (givePlace c).ctl = c.ctl := by
  unfold givePlace
  split
  · split <;> simp
  · rfl
@[simp] theorem givePlace_frm : (givePlace c).frm = c.frm := by
  unfold givePlace
  split
  · split <;> simp
  · rfl
@[simp] theorem givePlace_stn : (givePlace c).stn = c.stn := by
  unfold givePlace
  split
  · split <;> simp
  · rfl
@[simp] theorem givePlace_hlth : (givePlace c).hlth = c.hlth := by
  unfold givePlace
  split
  · split <;> simp
  · rfl
@[simp] theorem givePlace_prt : (givePlace c).prt = c.prt := by
  unfold givePlace
  split
  · split <;> simp
  · rfl
@[simp] theorem givePlace_rct : (givePlace c).rct = c.rct := by
  unfold givePlace
  split
  · split <;> simp
  · rfl
@[simp] theorem givePlace_evt : (givePlace c).evt = c.evt := by
  unfold givePlace
  split
  · split <;> simp
  · rfl

/-! #### withdrawFrame -/

@[simp] theorem withdrawFrame_resetAsserted (f : Purpose → Bool) :
    (withdrawFrame f c).resetAsserted = c.resetAsserted := rfl
@[simp] theorem withdrawFrame_cab (f : Purpose → Bool) : (withdrawFrame f c).cab = c.cab := rfl
@[simp] theorem withdrawFrame_pins (f : Purpose → Bool) : (withdrawFrame f c).pins = c.pins := rfl
@[simp] theorem withdrawFrame_ctl (f : Purpose → Bool) : (withdrawFrame f c).ctl = c.ctl := rfl
@[simp] theorem withdrawFrame_frm (f : Purpose → Bool) : (withdrawFrame f c).frm = c.frm := rfl
@[simp] theorem withdrawFrame_stn (f : Purpose → Bool) : (withdrawFrame f c).stn = c.stn := rfl
@[simp] theorem withdrawFrame_hlth (f : Purpose → Bool) : (withdrawFrame f c).hlth = c.hlth := rfl
@[simp] theorem withdrawFrame_prt (f : Purpose → Bool) : (withdrawFrame f c).prt = c.prt := rfl
@[simp] theorem withdrawFrame_rct (f : Purpose → Bool) : (withdrawFrame f c).rct = c.rct := rfl
@[simp] theorem withdrawFrame_evt (f : Purpose → Bool) : (withdrawFrame f c).evt = c.evt := rfl

/-! #### redriveNotice -/

@[simp] theorem redriveNotice_resetAsserted : (redriveNotice c).resetAsserted = c.resetAsserted := rfl
@[simp] theorem redriveNotice_cab : (redriveNotice c).cab = c.cab := rfl
@[simp] theorem redriveNotice_pins : (redriveNotice c).pins = c.pins := rfl
@[simp] theorem redriveNotice_path : (redriveNotice c).path = c.path := rfl
@[simp] theorem redriveNotice_ctl : (redriveNotice c).ctl = c.ctl := rfl
@[simp] theorem redriveNotice_frm : (redriveNotice c).frm = c.frm := rfl
@[simp] theorem redriveNotice_stn : (redriveNotice c).stn = c.stn := rfl
@[simp] theorem redriveNotice_hlth : (redriveNotice c).hlth = c.hlth := rfl
@[simp] theorem redriveNotice_prt : (redriveNotice c).prt = c.prt := rfl
@[simp] theorem redriveNotice_rct : (redriveNotice c).rct = c.rct := rfl

/-! #### redriveLines -/

@[simp] theorem redriveLines_resetAsserted : (redriveLines c).resetAsserted = c.resetAsserted := rfl
@[simp] theorem redriveLines_cab : (redriveLines c).cab = c.cab := rfl
@[simp] theorem redriveLines_pins : (redriveLines c).pins = c.pins := rfl
@[simp] theorem redriveLines_path : (redriveLines c).path = c.path := rfl
@[simp] theorem redriveLines_ctl : (redriveLines c).ctl = c.ctl := rfl
@[simp] theorem redriveLines_frm : (redriveLines c).frm = c.frm := rfl
@[simp] theorem redriveLines_stn : (redriveLines c).stn = c.stn := rfl
@[simp] theorem redriveLines_hlth : (redriveLines c).hlth = c.hlth := rfl
@[simp] theorem redriveLines_prt : (redriveLines c).prt = c.prt := rfl
@[simp] theorem redriveLines_evt : (redriveLines c).evt = c.evt := rfl

/-! #### recordsWritten -/

@[simp] theorem recordsWritten_resetAsserted (v : Nat) (l : List EvClass) :
    (recordsWritten v l c).resetAsserted = c.resetAsserted := by
  simp [recordsWritten]
@[simp] theorem recordsWritten_cab (v : Nat) (l : List EvClass) :
    (recordsWritten v l c).cab = c.cab := by
  simp [recordsWritten]
@[simp] theorem recordsWritten_pins (v : Nat) (l : List EvClass) :
    (recordsWritten v l c).pins = c.pins := by
  simp [recordsWritten]
@[simp] theorem recordsWritten_path (v : Nat) (l : List EvClass) :
    (recordsWritten v l c).path = c.path := by
  simp [recordsWritten]
@[simp] theorem recordsWritten_ctl (v : Nat) (l : List EvClass) :
    (recordsWritten v l c).ctl = c.ctl := by
  simp [recordsWritten]
@[simp] theorem recordsWritten_frm (v : Nat) (l : List EvClass) :
    (recordsWritten v l c).frm = c.frm := by
  simp [recordsWritten]
@[simp] theorem recordsWritten_stn (v : Nat) (l : List EvClass) :
    (recordsWritten v l c).stn = c.stn := by
  simp [recordsWritten]
@[simp] theorem recordsWritten_hlth (v : Nat) (l : List EvClass) :
    (recordsWritten v l c).hlth = c.hlth := by
  simp [recordsWritten]
@[simp] theorem recordsWritten_prt (v : Nat) (l : List EvClass) :
    (recordsWritten v l c).prt = c.prt := by
  simp [recordsWritten]
@[simp] theorem recordsWritten_rct (v : Nat) (l : List EvClass) :
    (recordsWritten v l c).rct = c.rct := by
  simp [recordsWritten]

/-! #### formRecord -/

@[simp] theorem formRecord_resetAsserted (k : EvClass) (n : Nat) (b : List Word) :
    (formRecord k n b c).resetAsserted = c.resetAsserted := by
  simp [formRecord]
@[simp] theorem formRecord_cab (k : EvClass) (n : Nat) (b : List Word) :
    (formRecord k n b c).cab = c.cab := by
  simp [formRecord]
@[simp] theorem formRecord_pins (k : EvClass) (n : Nat) (b : List Word) :
    (formRecord k n b c).pins = c.pins := by
  simp [formRecord]
@[simp] theorem formRecord_ctl (k : EvClass) (n : Nat) (b : List Word) :
    (formRecord k n b c).ctl = c.ctl := by
  simp [formRecord]
@[simp] theorem formRecord_frm (k : EvClass) (n : Nat) (b : List Word) :
    (formRecord k n b c).frm = c.frm := by
  simp [formRecord]
@[simp] theorem formRecord_stn (k : EvClass) (n : Nat) (b : List Word) :
    (formRecord k n b c).stn = c.stn := by
  simp [formRecord]
@[simp] theorem formRecord_hlth (k : EvClass) (n : Nat) (b : List Word) :
    (formRecord k n b c).hlth = c.hlth := by
  simp [formRecord]
@[simp] theorem formRecord_prt (k : EvClass) (n : Nat) (b : List Word) :
    (formRecord k n b c).prt = c.prt := by
  simp [formRecord]
@[simp] theorem formRecord_rct (k : EvClass) (n : Nat) (b : List Word) :
    (formRecord k n b c).rct = c.rct := by
  simp [formRecord]

/-! #### formProducer -/

@[simp] theorem formProducer_resetAsserted (l : List EvClass) :
    (formProducer l c).resetAsserted = c.resetAsserted := by
  simp [formProducer]
@[simp] theorem formProducer_cab (l : List EvClass) : (formProducer l c).cab = c.cab := by
  simp [formProducer]
@[simp] theorem formProducer_pins (l : List EvClass) : (formProducer l c).pins = c.pins := by
  simp [formProducer]
@[simp] theorem formProducer_ctl (l : List EvClass) : (formProducer l c).ctl = c.ctl := by
  simp [formProducer]
@[simp] theorem formProducer_frm (l : List EvClass) : (formProducer l c).frm = c.frm := by
  simp [formProducer]
@[simp] theorem formProducer_stn (l : List EvClass) : (formProducer l c).stn = c.stn := by
  simp [formProducer]
@[simp] theorem formProducer_hlth (l : List EvClass) : (formProducer l c).hlth = c.hlth := by
  simp [formProducer]
@[simp] theorem formProducer_prt (l : List EvClass) : (formProducer l c).prt = c.prt := by
  simp [formProducer]
@[simp] theorem formProducer_rct (l : List EvClass) : (formProducer l c).rct = c.rct := by
  simp [formProducer]
@[simp] theorem formProducer_evt (l : List EvClass) : (formProducer l c).evt = c.evt := by
  simp [formProducer]

/-! #### formEvent -/

@[simp] theorem formEvent_resetAsserted (v : Event) :
    (formEvent v c).resetAsserted = c.resetAsserted := by
  unfold formEvent
  split <;> simp
@[simp] theorem formEvent_cab (v : Event) : (formEvent v c).cab = c.cab := by
  unfold formEvent
  split <;> simp
@[simp] theorem formEvent_pins (v : Event) : (formEvent v c).pins = c.pins := by
  unfold formEvent
  split <;> simp
@[simp] theorem formEvent_ctl (v : Event) : (formEvent v c).ctl = c.ctl := by
  unfold formEvent
  split <;> simp
@[simp] theorem formEvent_frm (v : Event) : (formEvent v c).frm = c.frm := by
  unfold formEvent
  split <;> simp
@[simp] theorem formEvent_stn (v : Event) : (formEvent v c).stn = c.stn := by
  unfold formEvent
  split <;> simp
@[simp] theorem formEvent_hlth (v : Event) : (formEvent v c).hlth = c.hlth := by
  unfold formEvent
  split <;> simp
@[simp] theorem formEvent_prt (v : Event) : (formEvent v c).prt = c.prt := by
  unfold formEvent
  split <;> simp
@[simp] theorem formEvent_rct (v : Event) : (formEvent v c).rct = c.rct := by
  unfold formEvent
  split <;> simp

/-! #### recordEvent -/

@[simp] theorem recordEvent_resetAsserted (v : Event) :
    (recordEvent v c).resetAsserted = c.resetAsserted := by
  unfold recordEvent
  split
  · rfl
  · split <;> simp
@[simp] theorem recordEvent_cab (v : Event) : (recordEvent v c).cab = c.cab := by
  unfold recordEvent
  split
  · rfl
  · split <;> simp
@[simp] theorem recordEvent_pins (v : Event) : (recordEvent v c).pins = c.pins := by
  unfold recordEvent
  split
  · rfl
  · split <;> simp
@[simp] theorem recordEvent_ctl (v : Event) : (recordEvent v c).ctl = c.ctl := by
  unfold recordEvent
  split
  · rfl
  · split <;> simp
@[simp] theorem recordEvent_frm (v : Event) : (recordEvent v c).frm = c.frm := by
  unfold recordEvent
  split
  · rfl
  · split <;> simp
@[simp] theorem recordEvent_stn (v : Event) : (recordEvent v c).stn = c.stn := by
  unfold recordEvent
  split
  · rfl
  · split <;> simp
@[simp] theorem recordEvent_hlth (v : Event) : (recordEvent v c).hlth = c.hlth := by
  unfold recordEvent
  split
  · rfl
  · split <;> simp
@[simp] theorem recordEvent_prt (v : Event) : (recordEvent v c).prt = c.prt := by
  unfold recordEvent
  split
  · rfl
  · split <;> simp
@[simp] theorem recordEvent_rct (v : Event) : (recordEvent v c).rct = c.rct := by
  unfold recordEvent
  split
  · rfl
  · split <;> simp

/-! #### formOverflow -/

@[simp] theorem formOverflow_resetAsserted : (formOverflow c).resetAsserted = c.resetAsserted := by
  simp [formOverflow]
@[simp] theorem formOverflow_cab : (formOverflow c).cab = c.cab := by
  simp [formOverflow]
@[simp] theorem formOverflow_pins : (formOverflow c).pins = c.pins := by
  simp [formOverflow]
@[simp] theorem formOverflow_ctl : (formOverflow c).ctl = c.ctl := by
  simp [formOverflow]
@[simp] theorem formOverflow_frm : (formOverflow c).frm = c.frm := by
  simp [formOverflow]
@[simp] theorem formOverflow_stn : (formOverflow c).stn = c.stn := by
  simp [formOverflow]
@[simp] theorem formOverflow_hlth : (formOverflow c).hlth = c.hlth := by
  simp [formOverflow]
@[simp] theorem formOverflow_prt : (formOverflow c).prt = c.prt := by
  simp [formOverflow]
@[simp] theorem formOverflow_rct : (formOverflow c).rct = c.rct := by
  simp [formOverflow]

/-! #### consume -/

@[simp] theorem consume_resetAsserted (d : Word) : (consume d c).resetAsserted = c.resetAsserted := by
  simp [consume]
@[simp] theorem consume_cab (d : Word) : (consume d c).cab = c.cab := by
  simp [consume]
@[simp] theorem consume_pins (d : Word) : (consume d c).pins = c.pins := by
  simp [consume]
@[simp] theorem consume_path (d : Word) : (consume d c).path = c.path := by
  simp [consume]
@[simp] theorem consume_ctl (d : Word) : (consume d c).ctl = c.ctl := by
  simp [consume]
@[simp] theorem consume_frm (d : Word) : (consume d c).frm = c.frm := by
  simp [consume]
@[simp] theorem consume_stn (d : Word) : (consume d c).stn = c.stn := by
  simp [consume]
@[simp] theorem consume_hlth (d : Word) : (consume d c).hlth = c.hlth := by
  simp [consume]
@[simp] theorem consume_prt (d : Word) : (consume d c).prt = c.prt := by
  simp [consume]
@[simp] theorem consume_rct (d : Word) : (consume d c).rct = c.rct := by
  simp [consume]

/-! #### consumerWrite -/

@[simp] theorem consumerWrite_resetAsserted (d : Word) :
    (consumerWrite d c).resetAsserted = c.resetAsserted := by
  unfold consumerWrite
  split <;> simp
@[simp] theorem consumerWrite_cab (d : Word) : (consumerWrite d c).cab = c.cab := by
  unfold consumerWrite
  split <;> simp
@[simp] theorem consumerWrite_pins (d : Word) : (consumerWrite d c).pins = c.pins := by
  unfold consumerWrite
  split <;> simp
@[simp] theorem consumerWrite_ctl (d : Word) : (consumerWrite d c).ctl = c.ctl := by
  unfold consumerWrite
  split <;> simp
@[simp] theorem consumerWrite_frm (d : Word) : (consumerWrite d c).frm = c.frm := by
  unfold consumerWrite
  split <;> simp
@[simp] theorem consumerWrite_stn (d : Word) : (consumerWrite d c).stn = c.stn := by
  unfold consumerWrite
  split <;> simp
@[simp] theorem consumerWrite_hlth (d : Word) : (consumerWrite d c).hlth = c.hlth := by
  unfold consumerWrite
  split <;> simp
@[simp] theorem consumerWrite_prt (d : Word) : (consumerWrite d c).prt = c.prt := by
  unfold consumerWrite
  split <;> simp
@[simp] theorem consumerWrite_rct (d : Word) : (consumerWrite d c).rct = c.rct := by
  unfold consumerWrite
  split <;> simp

end Sys2Proof.Machine
end

