-- ==== Sys2Proof/Laws/Table.lean ====
section
/-! SUPPORT. The laws of finite tables: a read after a write, and the canonical form kept by every write. -/

namespace Sys2Proof.Machine

variable {α : Type}

/-! ### Reads after writes -/

theorem tget_terase_self (d : α) (t : Table α) (i : Nat) : tget d (terase t i) i = d := by
  induction t with
  | nil => rfl
  | cons e t ih =>
    obtain ⟨k, v⟩ := e
    by_cases hk : k = i <;> simp_all [terase, tget]

theorem tget_terase_of_ne (d : α) (t : Table α) {i j : Nat} (h : j ≠ i) :
    tget d (terase t i) j = tget d t j := by
  induction t with
  | nil => rfl
  | cons e t ih =>
    obtain ⟨k, v⟩ := e
    by_cases hk : k = i
    · have hj : ¬ k = j := fun h' => h (h'.symm.trans hk)
      simp_all [terase, tget]
    · by_cases hj : k = j <;> simp_all [terase, tget]

theorem tget_tinsert_self (d : α) (t : Table α) (i : Nat) (v : α) (h : ∀ e ∈ t, e.1 ≠ i) :
    tget d (tinsert i v t) i = v := by
  induction t with
  | nil => simp [tinsert, tget]
  | cons e t ih =>
    obtain ⟨k, w⟩ := e
    have hk : k ≠ i := h (k, w) (by simp)
    simp only [tinsert]
    split
    · simp [tget]
    · simp [tget, hk, ih fun e he => h e (List.mem_cons_of_mem _ he)]

theorem tget_tinsert_of_ne (d : α) (t : Table α) {i j : Nat} (v : α) (h : j ≠ i) :
    tget d (tinsert i v t) j = tget d t j := by
  induction t with
  | nil => simp [tinsert, tget, h.symm]
  | cons e t ih =>
    obtain ⟨k, w⟩ := e
    simp only [tinsert]
    split
    · simp [tget, h.symm]
    · simp [tget, ih]

theorem mem_terase {t : Table α} {i : Nat} {e : Nat × α} (h : e ∈ terase t i) : e.1 ≠ i := by
  simpa [terase] using (List.mem_filter.mp h).2

section Write

variable [DecidableEq α]

/-- A read of the index just written gives the value written. -/
@[simp] theorem tget_tset_self (d : α) (t : Table α) (i : Nat) (v : α) : tget d (tset d t i v) i = v := by
  unfold tset
  split
  · rename_i h
    rw [tget_terase_self, h]
  · exact tget_tinsert_self d _ i v fun e he => mem_terase he

/-- A write leaves every other index alone. -/
theorem tget_tset_of_ne (d : α) (t : Table α) {i j : Nat} (v : α) (h : j ≠ i) :
    tget d (tset d t i v) j = tget d t j := by
  unfold tset
  split
  · exact tget_terase_of_ne d t h
  · rw [tget_tinsert_of_ne d _ v h, tget_terase_of_ne d t h]

/-- A read after a write, in one statement. -/
theorem tget_tset (d : α) (t : Table α) (i j : Nat) (v : α) :
    tget d (tset d t i v) j = if j = i then v else tget d t j := by
  split
  · next h => subst h; exact tget_tset_self d t j v
  · next h => exact tget_tset_of_ne d t v h

end Write

/-! ### The canonical form -/

/-- The indices of a table rise strictly from above a bound. -/
theorem trising_cons (a : Nat × α) (t : Table α) :
    trising (a :: t) = true ↔ (∀ e ∈ t, a.1 < e.1) ∧ trising t = true := by
  induction t generalizing a with
  | nil => simp [trising]
  | cons b t ih =>
    simp only [trising, Bool.and_eq_true, decide_eq_true_eq]
    constructor
    · rintro ⟨hab, hb⟩
      refine ⟨fun e he => ?_, hb⟩
      rcases List.mem_cons.mp he with rfl | he
      · exact hab
      · exact hab.trans (((ih b).mp hb).1 e he)
    · rintro ⟨h, hb⟩
      exact ⟨h b (by simp), hb⟩

theorem trising_terase {t : Table α} (i : Nat) (h : trising t = true) : trising (terase t i) = true := by
  induction t with
  | nil => rfl
  | cons e t ih =>
    obtain ⟨hlt, ht⟩ := (trising_cons e t).mp h
    by_cases he : e.1 = i
    · simpa [terase, he] using ih ht
    · have : terase (e :: t) i = e :: terase t i := by simp [terase, he]
      rw [this, trising_cons]
      exact ⟨fun x hx => hlt x (List.mem_of_mem_filter hx), ih ht⟩

theorem mem_tinsert {t : Table α} {i : Nat} {v : α} {e : Nat × α} (h : e ∈ tinsert i v t) :
    e = (i, v) ∨ e ∈ t := by
  induction t with
  | nil => simpa [tinsert] using h
  | cons a t ih =>
    obtain ⟨k, w⟩ := a
    simp only [tinsert] at h
    split at h
    · simpa using h
    · rcases List.mem_cons.mp h with h | h
      · exact .inr (by simp [h])
      · rcases ih h with h | h
        · exact .inl h
        · exact .inr (List.mem_cons_of_mem _ h)

theorem trising_tinsert {t : Table α} {i : Nat} (v : α) (h : trising t = true) (hi : ∀ e ∈ t, e.1 ≠ i) :
    trising (tinsert i v t) = true := by
  induction t with
  | nil => rfl
  | cons a t ih =>
    obtain ⟨k, w⟩ := a
    obtain ⟨hlt, ht⟩ := (trising_cons (k, w) t).mp h
    simp only [tinsert]
    split
    · next hik =>
      rw [trising_cons]
      refine ⟨fun e he => ?_, h⟩
      rcases List.mem_cons.mp he with rfl | he
      · exact hik
      · exact Nat.lt_trans hik (hlt e he)
    · next hik =>
      have hki : k ≠ i := hi (k, w) (by simp)
      rw [trising_cons]
      refine ⟨fun e he => ?_, ih ht fun e he => hi e (List.mem_cons_of_mem _ he)⟩
      rcases mem_tinsert he with rfl | he
      · show k < i
        omega
      · exact hlt e he

/-- Every write keeps the canonical form. -/
theorem tableOk_tset [DecidableEq α] (d : α) {t : Table α} (i : Nat) (v : α) (h : tableOk d t = true) :
    tableOk d (tset d t i v) = true := by
  simp only [tableOk, Bool.and_eq_true, List.all_eq_true, decide_eq_true_eq] at h ⊢
  obtain ⟨hr, hd⟩ := h
  have he : ∀ e ∈ terase t i, e.2 ≠ d := fun e h => hd e (List.mem_of_mem_filter h)
  unfold tset
  split
  · exact ⟨trising_terase i hr, he⟩
  · next hv =>
    refine ⟨trising_tinsert v (trising_terase i hr) fun e h => mem_terase h, fun e h => ?_⟩
    rcases mem_tinsert h with rfl | h
    · exact hv
    · exact he e h

@[simp] theorem tableOk_nil [DecidableEq α] (d : α) : tableOk d ([] : Table α) = true := rfl

@[simp] theorem tget_nil (d : α) (i : Nat) : tget d [] i = d := rfl

end Sys2Proof.Machine
end

