-- ==== Sys2Proof/Laws/Memory.lean ====
section
/-! SUPPORT. Buffer memory: the canonical form kept by every operation on it, and what a read gives after a
write. -/

namespace Sys2Proof.Machine

/-! ### The canonical form -/

/-- Memory with nothing listed is in its canonical form. -/
@[simp] theorem Memory.wf_nil : Memory.wf [] = true := rfl

theorem Memory.wf_writeOctet {m : List Host.Cell} (k : Nat) (v : Octet) (h : Memory.wf m = true) :
    Memory.wf (writeOctet m k v) = true :=
  tableOk_tset _ k v h

theorem Memory.wf_writeMasked {m : List Host.Cell} (a : Nat) (be : BitVec 2) (d : Word)
    (h : Memory.wf m = true) : Memory.wf (writeMasked m a be d) = true := by
  simp only [writeMasked]
  split <;> split <;> simp_all [Memory.wf_writeOctet]

theorem Memory.wf_writeWord {m : List Host.Cell} (a : Nat) (d : Word) (h : Memory.wf m = true) :
    Memory.wf (writeWord m a d) = true :=
  Memory.wf_writeMasked a 3 d h

theorem Memory.wf_writeRun (ws : List (Word × Bool)) (m : List Host.Cell) (a n : Nat)
    (h : Memory.wf m = true) : Memory.wf (writeRun m a ws n) = true := by
  induction ws generalizing m a n with
  | nil => simpa [writeRun] using h
  | cons w ws ih =>
    obtain ⟨d, b⟩ := w
    cases b
    · cases n with
      | zero => simpa [writeRun] using h
      | succ n => simpa [writeRun] using ih _ (a + 1) n (Memory.wf_writeWord a d h)
    · simpa [writeRun] using ih m (a + 1) n h

/-! ### Reads after writes -/

theorem readOctet_writeOctet (m : List Host.Cell) (k j : Nat) (v : Octet) :
    readOctet (writeOctet m k v) j = if j = k then v else readOctet m j :=
  tget_tset _ m k j v

/-- What a write of a word leaves at every octet address. -/
theorem readOctet_writeMasked (m : List Host.Cell) (a : Nat) (be : BitVec 2) (d : Word) (j : Nat) :
    readOctet (writeMasked m a be d) j =
      if j = 2 * (a % Config.memoryWords) ∧ be.getLsbD 1 then hiOctet d
      else if j = 2 * (a % Config.memoryWords) + 1 ∧ be.getLsbD 0 then loOctet d
      else readOctet m j := by
  simp only [writeMasked]
  generalize 2 * (a % Config.memoryWords) = k
  cases be.getLsbD 1 <;> cases be.getLsbD 0 <;> simp [readOctet_writeOctet]
  split_ifs <;> first | rfl | omega

/-- A word of two octets of a word is the word. -/
theorem wordOf_octets (d : Word) : wordOf (hiOctet d) (loOctet d) = d := by
  simp only [wordOf, hiOctet, loOctet]
  rw [BitVec.extractLsb'_append_extractLsb'_eq_extractLsb' (by omega)]
  simp

/-- A read of a word just written in full gives the word. -/
theorem readWord_writeWord_self (m : List Host.Cell) (a : Nat) (d : Word) :
    readWord (writeWord m a d) a = d := by
  simp only [readWord, writeWord, readOctet_writeMasked]
  simp [wordOf_octets]

/-- A write of one word leaves every other word alone. -/
theorem readWord_writeMasked_of_ne (m : List Host.Cell) (a b : Nat) (be : BitVec 2) (d : Word)
    (h : b % Config.memoryWords ≠ a % Config.memoryWords) :
    readWord (writeMasked m a be d) b = readWord m b := by
  simp only [readWord, readOctet_writeMasked]
  have h1 : ¬ 2 * (b % Config.memoryWords) = 2 * (a % Config.memoryWords) := by omega
  have h2 : ¬ 2 * (b % Config.memoryWords) = 2 * (a % Config.memoryWords) + 1 := by omega
  have h3 : ¬ 2 * (b % Config.memoryWords) + 1 = 2 * (a % Config.memoryWords) := by omega
  simp [h1, h2, h3]

/-- A fetch reads as many words as it asks for. -/
@[simp] theorem readRun_length (m : List Host.Cell) (a n : Nat) : (readRun m a n).length = n := by
  induction n generalizing a with
  | zero => rfl
  | succ n ih => simp [readRun, ih]

end Sys2Proof.Machine
end

