-- ==== Sys2Proof/Laws/Access.lean ====
section
/-! SUPPORT. Accesses: what a strike leaves (R10), and what an access on a free bus does (R3 to R6, R12 to
R14). -/

namespace Sys2Proof.Machine

/-! ### Strikes -/

/-- A struck deposit touches the event unit and the command in progress only. -/
theorem depositStruck_keeps (c : Chip) (e : Entry) :
    c.controlKept (depositStruck c e) ∧ (depositStruck c e).path = c.path ∧
      (c.ctl.command = none → (depositStruck c e).ctl.command = none) := by
  unfold depositStruck Chip.controlKept
  split <;> simp [Chip.setCommand, Chip.withCtl]

@[simp] theorem depositStruck_resetAsserted (c : Chip) (e : Entry) : (depositStruck c e).resetAsserted = c.resetAsserted := by
  unfold depositStruck
  split <;> simp

@[simp] theorem depositStruck_cab (c : Chip) (e : Entry) : (depositStruck c e).cab = c.cab := by
  unfold depositStruck
  split <;> simp

@[simp] theorem depositStruck_pins (c : Chip) (e : Entry) : (depositStruck c e).pins = c.pins := by
  unfold depositStruck
  split <;> simp

@[simp] theorem depositStruck_frm (c : Chip) (e : Entry) : (depositStruck c e).frm = c.frm := by
  unfold depositStruck
  split <;> simp

@[simp] theorem depositStruck_stn (c : Chip) (e : Entry) : (depositStruck c e).stn = c.stn := by
  unfold depositStruck
  split <;> simp

@[simp] theorem depositStruck_hlth (c : Chip) (e : Entry) : (depositStruck c e).hlth = c.hlth := by
  unfold depositStruck
  split <;> simp

@[simp] theorem depositStruck_prt (c : Chip) (e : Entry) : (depositStruck c e).prt = c.prt := by
  unfold depositStruck
  split <;> simp

@[simp] theorem depositStruck_rct (c : Chip) (e : Entry) : (depositStruck c e).rct = c.rct := by
  unfold depositStruck
  split <;> simp

theorem foldl_depositStruck_keeps (l : List Entry) (c : Chip) :
    c.controlKept (l.foldl depositStruck c) ∧ (l.foldl depositStruck c).path = c.path ∧
      (c.ctl.command = none → (l.foldl depositStruck c).ctl.command = none) := by
  induction l generalizing c with
  | nil => simp [Chip.controlKept]
  | cons e l ih =>
    obtain ⟨h1, h2, h3⟩ := depositStruck_keeps c e
    obtain ⟨i1, i2, i3⟩ := ih (depositStruck c e)
    refine ⟨?_, i2.trans h2, fun h => i3 (h3 h)⟩
    simp only [Chip.controlKept, List.foldl_cons] at *
    rw [i1, h1]

/-- A strike leaves the control unit's copies, gate, masks and mode, and starts no command. -/
theorem strikeAt_keeps (a : Nat) (c : Chip) :
    c.controlKept (strikeAt a c) ∧ (c.ctl.command = none → (strikeAt a c).ctl.command = none) := by
  obtain ⟨h1, _, h3⟩ := foldl_depositStruck_keeps ((c.path.queue.map (strikeEntry a)).filter Entry.allStruck)
    (c.withPath { c.path with
      queue := (c.path.queue.map (strikeEntry a)).filter fun e => !e.allStruck })
  exact ⟨h1, h3⟩

/-- A strike takes entries from the queue and leaves what the units wait to add. -/
theorem strikeAt_path (a : Nat) (c : Chip) :
    (strikeAt a c).path = { c.path with
      queue := (c.path.queue.map (strikeEntry a)).filter fun e => !e.allStruck } :=
  (foldl_depositStruck_keeps ((c.path.queue.map (strikeEntry a)).filter Entry.allStruck) _).2.1

theorem strikeAt_queue_length (a : Nat) (c : Chip) :
    (strikeAt a c).path.queue.length ≤ c.path.queue.length := by
  rw [strikeAt_path]
  exact (List.length_filter_le _ _).trans (by simp)

theorem foldl_depositStruck_resetAsserted (l : List Entry) (c : Chip) : (l.foldl depositStruck c).resetAsserted = c.resetAsserted := by
  induction l generalizing c with
  | nil => rfl
  | cons e l ih => simp [ih]

@[simp] theorem strikeAt_resetAsserted (a : Nat) (c : Chip) : (strikeAt a c).resetAsserted = c.resetAsserted := by
  simp [strikeAt, foldl_depositStruck_resetAsserted]

theorem foldl_depositStruck_cab (l : List Entry) (c : Chip) : (l.foldl depositStruck c).cab = c.cab := by
  induction l generalizing c with
  | nil => rfl
  | cons e l ih => simp [ih]

@[simp] theorem strikeAt_cab (a : Nat) (c : Chip) : (strikeAt a c).cab = c.cab := by
  simp [strikeAt, foldl_depositStruck_cab]

theorem foldl_depositStruck_pins (l : List Entry) (c : Chip) : (l.foldl depositStruck c).pins = c.pins := by
  induction l generalizing c with
  | nil => rfl
  | cons e l ih => simp [ih]

@[simp] theorem strikeAt_pins (a : Nat) (c : Chip) : (strikeAt a c).pins = c.pins := by
  simp [strikeAt, foldl_depositStruck_pins]

theorem foldl_depositStruck_frm (l : List Entry) (c : Chip) : (l.foldl depositStruck c).frm = c.frm := by
  induction l generalizing c with
  | nil => rfl
  | cons e l ih => simp [ih]

@[simp] theorem strikeAt_frm (a : Nat) (c : Chip) : (strikeAt a c).frm = c.frm := by
  simp [strikeAt, foldl_depositStruck_frm]

theorem foldl_depositStruck_stn (l : List Entry) (c : Chip) : (l.foldl depositStruck c).stn = c.stn := by
  induction l generalizing c with
  | nil => rfl
  | cons e l ih => simp [ih]

@[simp] theorem strikeAt_stn (a : Nat) (c : Chip) : (strikeAt a c).stn = c.stn := by
  simp [strikeAt, foldl_depositStruck_stn]

theorem foldl_depositStruck_hlth (l : List Entry) (c : Chip) : (l.foldl depositStruck c).hlth = c.hlth := by
  induction l generalizing c with
  | nil => rfl
  | cons e l ih => simp [ih]

@[simp] theorem strikeAt_hlth (a : Nat) (c : Chip) : (strikeAt a c).hlth = c.hlth := by
  simp [strikeAt, foldl_depositStruck_hlth]

theorem foldl_depositStruck_prt (l : List Entry) (c : Chip) : (l.foldl depositStruck c).prt = c.prt := by
  induction l generalizing c with
  | nil => rfl
  | cons e l ih => simp [ih]

@[simp] theorem strikeAt_prt (a : Nat) (c : Chip) : (strikeAt a c).prt = c.prt := by
  simp [strikeAt, foldl_depositStruck_prt]

theorem foldl_depositStruck_rct (l : List Entry) (c : Chip) : (l.foldl depositStruck c).rct = c.rct := by
  induction l generalizing c with
  | nil => rfl
  | cons e l ih => simp [ih]

@[simp] theorem strikeAt_rct (a : Nat) (c : Chip) : (strikeAt a c).rct = c.rct := by
  simp [strikeAt, foldl_depositStruck_rct]

@[simp] theorem strikeAt_ctl_staging (a : Nat) (c : Chip) : (strikeAt a c).ctl.staging = c.ctl.staging := by
  rw [(strikeAt_keeps a c).1]

@[simp] theorem strikeAt_ctl_unit (a : Nat) (c : Chip) : (strikeAt a c).ctl.unit = c.ctl.unit := by
  rw [(strikeAt_keeps a c).1]

@[simp] theorem strikeAt_ctl_unitCommitted (a : Nat) (c : Chip) : (strikeAt a c).ctl.unitCommitted = c.ctl.unitCommitted := by
  rw [(strikeAt_keeps a c).1]

@[simp] theorem strikeAt_ctl_coaxRing (a : Nat) (c : Chip) : (strikeAt a c).ctl.coaxRing = c.ctl.coaxRing := by
  rw [(strikeAt_keeps a c).1]

@[simp] theorem strikeAt_ctl_pairRing (a : Nat) (c : Chip) : (strikeAt a c).ctl.pairRing = c.ctl.pairRing := by
  rw [(strikeAt_keeps a c).1]

@[simp] theorem strikeAt_ctl_transmitRing (a : Nat) (c : Chip) : (strikeAt a c).ctl.transmitRing = c.ctl.transmitRing := by
  rw [(strikeAt_keeps a c).1]

@[simp] theorem strikeAt_ctl_health (a : Nat) (c : Chip) : (strikeAt a c).ctl.health = c.ctl.health := by
  rw [(strikeAt_keeps a c).1]

@[simp] theorem strikeAt_ctl_print (a : Nat) (c : Chip) : (strikeAt a c).ctl.print = c.ctl.print := by
  rw [(strikeAt_keeps a c).1]

@[simp] theorem strikeAt_ctl_aging (a : Nat) (c : Chip) : (strikeAt a c).ctl.aging = c.ctl.aging := by
  rw [(strikeAt_keeps a c).1]

@[simp] theorem strikeAt_ctl_printers (a : Nat) (c : Chip) : (strikeAt a c).ctl.printers = c.ctl.printers := by
  rw [(strikeAt_keeps a c).1]

@[simp] theorem strikeAt_ctl_gateClosed (a : Nat) (c : Chip) : (strikeAt a c).ctl.gateClosed = c.ctl.gateClosed := by
  rw [(strikeAt_keeps a c).1]

@[simp] theorem strikeAt_ctl_noticeMask (a : Nat) (c : Chip) : (strikeAt a c).ctl.noticeMask = c.ctl.noticeMask := by
  rw [(strikeAt_keeps a c).1]

@[simp] theorem strikeAt_ctl_recordMask (a : Nat) (c : Chip) : (strikeAt a c).ctl.recordMask = c.ctl.recordMask := by
  rw [(strikeAt_keeps a c).1]

@[simp] theorem strikeAt_ctl_pendingHealth (a : Nat) (c : Chip) : (strikeAt a c).ctl.pendingHealth = c.ctl.pendingHealth := by
  rw [(strikeAt_keeps a c).1]

@[simp] theorem strikeAt_ctl_pendingPrint (a : Nat) (c : Chip) : (strikeAt a c).ctl.pendingPrint = c.ctl.pendingPrint := by
  rw [(strikeAt_keeps a c).1]

@[simp] theorem strikeAt_ctl_pendingAging (a : Nat) (c : Chip) : (strikeAt a c).ctl.pendingAging = c.ctl.pendingAging := by
  rw [(strikeAt_keeps a c).1]

@[simp] theorem strikeAt_ctl_pendingLines (a : Nat) (c : Chip) : (strikeAt a c).ctl.pendingLines = c.ctl.pendingLines := by
  rw [(strikeAt_keeps a c).1]

@[simp] theorem strikeAt_ctl_pendingTimers (a : Nat) (c : Chip) : (strikeAt a c).ctl.pendingTimers = c.ctl.pendingTimers := by
  rw [(strikeAt_keeps a c).1]

@[simp] theorem strikeAt_ctl_pendingPrinters (a : Nat) (c : Chip) : (strikeAt a c).ctl.pendingPrinters = c.ctl.pendingPrinters := by
  rw [(strikeAt_keeps a c).1]

@[simp] theorem strikeAt_ctl_pendingReactions (a : Nat) (c : Chip) : (strikeAt a c).ctl.pendingReactions = c.ctl.pendingReactions := by
  rw [(strikeAt_keeps a c).1]

@[simp] theorem strikeAt_ctl_awaitingHealth (a : Nat) (c : Chip) : (strikeAt a c).ctl.awaitingHealth = c.ctl.awaitingHealth := by
  rw [(strikeAt_keeps a c).1]

@[simp] theorem strikeAt_ctl_awaitingPrinters (a : Nat) (c : Chip) : (strikeAt a c).ctl.awaitingPrinters = c.ctl.awaitingPrinters := by
  rw [(strikeAt_keeps a c).1]

@[simp] theorem strikeAt_ctl_mode (a : Nat) (c : Chip) : (strikeAt a c).ctl.mode = c.ctl.mode := by
  rw [(strikeAt_keeps a c).1]

@[simp] theorem strikeAt_base (a : Nat) (c : Chip) : (strikeAt a c).base = c.base := by
  simp [Chip.base]

/-! ### The control area's addresses (R1) -/

theorem Chip.base_le (c : Chip) : c.base + 8192 ≤ 1048576 := by
  have := c.cab.isLt
  simp only [Chip.base, Config.controlWords]
  omega

theorem Chip.controlAddr_toNat (c : Chip) {o : Nat} (h : o < 8192) :
    (c.controlAddr o).toNat = c.base + o := by
  have := c.base_le
  simp only [Chip.controlAddr, BitVec.toNat_ofNat]
  omega

/-- A word of the control area is classed as such, by its offset (R2). -/
theorem Chip.classify_control (c : Chip) {o : Nat} (h : o < 8192) :
    c.classify (c.base + o) = .control o := by
  simp [Chip.classify, inRun, Config.controlWords, h]

/-! ### An access on a free bus -/

/-- With no access held by WAIT there is nothing to settle. -/
theorem settle_free (n : Nat) {s : State} (h : s.chip.path.bus = none) : settle n s = s := by
  cases n <;> simp [settle, h]

/-- Where the part's own work can no further end the stretch, nothing settles. -/
theorem settle_held (n : Nat) {s : State} {b : Stretch} (h : s.chip.path.bus = some b)
    (ho : s.chip.stretchOver b = false) (hm : ownMove s = none) : settle n s = s := by
  cases n <;> simp [settle, h, ho, hm]

@[simp] theorem grantAsked_nil (s : State) : grantAsked [] s = s := rfl

/-- On a free bus the next access asked for begins. -/
theorem grantAsked_free {s : State} (h : s.chip.path.bus = none) (p : Pins) (l : List Pins) :
    grantAsked (p :: l) s = grantAsked l (beginAccess (p.access s.chip) s) := by
  simp [grantAsked, h]

/-- While WAIT holds an access, those asked for stay asked for (R14). -/
theorem grantAsked_held {s : State} {b : Stretch} (h : s.chip.path.bus = some b) (p : Pins) (l : List Pins) :
    grantAsked (p :: l) s = s.onChip fun c => c.withPath { c.path with asking := p :: l } := by
  simp [grantAsked, h]

theorem askAccess_free {s : State} (h : s.chip.path.bus = none) (p : Pins) :
    askAccess p s = beginAccess (p.access s.chip) s := by
  simp [askAccess, h]

theorem askAccess_held {s : State} {b : Stretch} (h : s.chip.path.bus = some b) (p : Pins) :
    askAccess p s = s.onChip fun c => c.withPath { c.path with asking := c.path.asking ++ [p] } := by
  simp [askAccess, h]

theorem endStretch_free {s : State} (h : s.chip.path.bus = none) : endStretch s = s := by
  simp [endStretch, h]

theorem endStretch_held {s : State} {b : Stretch} (h : s.chip.path.bus = some b)
    (ho : s.chip.stretchOver b = false) : endStretch s = s := by
  simp [endStretch, h, ho]

/-- The access of a stretch that waits for nothing more reaches memory; those asked for are granted. -/
theorem endStretch_over {s : State} {b : Stretch} (h : s.chip.path.bus = some b)
    (ho : s.chip.stretchOver b = true) : endStretch s = grantAsked s.chip.path.asking
      (performAccess b.access (s.onChip fun c => c.withPath { c.path with bus := none, asking := [] })) := by
  simp [endStretch, h, ho]

theorem present_free {s : State} (hr : s.chip.resetAsserted = false) (hb : s.chip.path.bus = none)
    (m : Master) (w : Bool) (a : BusAddr) (be : BitVec 2) (d : Word) :
    present m w a be d s = .next (beginAccess (classed s.chip m w a be d) s) := by
  simp [present, hr, settle_free _ hb, askAccess_free hb, Pins.access]

/-- While WAIT holds an access that the part's own work cannot end, another is asked for and nothing else
happens (R14). -/
theorem present_held {s : State} {b : Stretch} (hr : s.chip.resetAsserted = false)
    (h : s.chip.path.bus = some b) (ho : s.chip.stretchOver b = false) (hm : ownMove s = none) (p : Pins) :
    present p.master p.write p.addr p.be p.data s =
      .next (s.onChip fun c => c.withPath { c.path with asking := c.path.asking ++ [p] }) := by
  simp [present, hr, settle_held _ h ho hm, askAccess_held h]

/-- While RESET is asserted an access is carried to memory unaltered (R15). -/
theorem present_reset {s : State} (hr : s.chip.resetAsserted = true) (m : Master) (w : Bool) (a : BusAddr)
    (be : BitVec 2) (d : Word) : present m w a be d s = .next (rawAccess w a.toNat be d s) := by
  simp [present, hr]

theorem hasPlace_of_busFree {s : State} (h : s.busFree) : s.chip.hasPlace = true := by
  simpa [Chip.hasPlace] using h.2.2

/-- A write on a free bus with a place in the queue, no completion waiting for a slot, is not stretched. -/
theorem beginAccess_write {s : State} {x : Access} (h : s.busFree) (hw : x.write = true)
    (hs : s.chip.noSlotFor x = false) : beginAccess x s = writeAccess x s := by
  simp [beginAccess, Chip.owedTo, hw, hs, hasPlace_of_busFree h, performAccess]

/-- A read that meets no queued deposit of its word is not stretched (R13). -/
theorem beginAccess_read {s : State} {x : Access} (h : s.busFree) (hw : x.write = false)
    (hl : lastHolding x.addr s.chip.path.queue = 0) : beginAccess x s = readAccess x s := by
  have hc : x.completion = none := by
    unfold Access.completion
    split <;> simp [hw]
  simp [beginAccess, Chip.owedTo, hw, hl, hasPlace_of_busFree h, Chip.noSlotFor, hc, performAccess]

/-- Only a receive engine completes a descriptor. -/
theorem completion_of_master {x : Access} (h : masterEngine x.master = none) : x.completion = none := by
  unfold Access.completion
  simp [h]

theorem noSlotFor_of_completion {c : Chip} {x : Access} (h : x.completion = none) :
    c.noSlotFor x = false := by
  simp [Chip.noSlotFor, h]

/-- A master's write on a free bus, which no full held list stretches, reaches memory (R4). -/
theorem present_write {s : State} (h : s.busFree) (m : Master) (a : BusAddr) (be : BitVec 2) (d : Word)
    (hs : s.chip.noSlotFor (classed s.chip m true a be d) = false) :
    present m true a be d s = .next (writeAccess (classed s.chip m true a be d) s) := by
  rw [present_free h.1 h.2.1, beginAccess_write h rfl hs]

/-- A master's read on a free bus, of a word that no queued deposit holds (R4). -/
theorem present_read {s : State} {a : BusAddr} (h : s.readFree a) (m : Master) (be : BitVec 2) :
    present m false a be 0 s = .next (readAccess (classed s.chip m false a be 0) s) := by
  rw [present_free h.1.1 h.1.2.1, beginAccess_read h.1 rfl h.2]

/-- A processor full-word write in the control area, on a free bus: the word reaches memory, strikes, and is
taken by the control unit (R16). -/
theorem processorWrite_free {s : State} (h : s.busFree) {o : Nat} (ho : o < 8192) (d : Word) :
    processorWrite o d s = .next ((s.withMem (writeMasked s.mem (s.chip.base + o) 3 d)).withChip
      (controlWrite top o d (strikeAt (s.chip.base + o) s.chip))) := by
  have hc : (classed s.chip .processor true (s.chip.controlAddr o) 3 d).completion = none :=
    completion_of_master rfl
  rw [processorWrite, present_write h _ _ _ _ (noSlotFor_of_completion hc)]
  simp [writeAccess, classed, Chip.controlAddr_toNat _ ho, Chip.classify_control _ ho, noOctet, frameShown,
    cancelAt, masterEngine, rewritten, Access.completion, Chip.guards, unitsShown, controlShown, fullWord]

/-! ### The command word -/

@[simp] theorem hiOctet_octetPair (a b : Nat) : (hiOctet (octetPair a b)).toNat = a % 256 := by
  simp [hiOctet, octetPair]
  omega

@[simp] theorem loOctet_octetPair (a : Nat) (b : Octet) : loOctet (octetPair a b.toNat) = b := by
  apply BitVec.eq_of_toNat_eq
  have := b.isLt
  simp [loOctet, octetPair]
  omega

/-- A command word written on a free bus is taken by the control unit (R26). -/
theorem commandWrite_free {s : State} (h : s.busFree) (code : Nat) (tag : Octet) :
    commandWrite code tag s = .next ((s.withMem (writeMasked s.mem s.chip.base 3 (octetPair code tag.toNat))).withChip
      (takeCommand top (octetPair code tag.toNat) (strikeAt s.chip.base s.chip))) := by
  rw [commandWrite, processorWrite_free h (by decide), Nat.add_zero]
  simp only [controlWrite, if_true]

/-- With no command in progress, a code of the table in a mode that allows it is performed (R26). -/
theorem takeCommand_performs (g : Give) {c : Chip} {k : CommandCode} {code : Nat} (tag : Octet)
    (hc : c.ctl.command = none) (hk : commandOf (code % 256) = some k) (hm : k.allowed c.ctl.mode = true) :
    takeCommand g (octetPair code tag.toNat) c = performCommand g k tag c := by
  simp [takeCommand, hc, hk, hm]

/-- What memory holds after a full-word write in the control area. -/
theorem wordWritten_of_mem {s t : State} {a : BusAddr} {be : BitVec 2} {d : Word}
    (h : t.mem = writeMasked s.mem a.toNat be d) : s.wordWritten t a be d := by
  intro k
  have : a.toNat % Config.memoryWords = a.toNat := Nat.mod_eq_of_lt a.isLt
  rw [h, readOctet_writeMasked, this]

end Sys2Proof.Machine
end

