-- ==== Sys2Proof/Laws/Queue.lean ====
section
/-! SUPPORT. The private queue and the event unit: everything an offer can do (R8), what each
unit has formed, the bound of 16 entries (R7), what an event does (R176, R178), and replies (R26). -/

namespace Sys2Proof.Machine

/-! ### Offers (R8) -/

/-- Everything an offer can do: the entry joins the queue, or waits behind its unit's others. -/
theorem offer_cases (e : Entry) (c : Chip) :
    (c.path.queue.length < Config.queueLimit ∧ c.waiting e.owner = [] ∧ c.blocked e = false ∧
        offer e c = joinQueue e c) ∨
      offer e c = c.putWaiting e.owner (c.waiting e.owner ++ [e]) := by
  unfold offer
  split
  · next h =>
    simp only [Bool.and_eq_true, Bool.not_eq_true', List.isEmpty_iff, Chip.hasPlace, decide_eq_true_eq] at h
    exact .inl ⟨h.1.1, h.1.2, h.2, rfl⟩
  · exact .inr rfl

@[simp] theorem putWaiting_queue (o : Owner) (l : List Entry) (c : Chip) :
    (c.putWaiting o l).path.queue = c.path.queue := by
  cases o <;> rfl

@[simp] theorem putWaiting_waiting (o : Owner) (l : List Entry) (c : Chip) :
    (c.putWaiting o l).waiting o = l := by
  cases o <;> rfl

theorem joinQueue_queue (e : Entry) (c : Chip) :
    (joinQueue e c).path.queue = c.path.queue ++ [takenEntry c e] := rfl

@[simp] theorem joinQueue_waiting (e : Entry) (c : Chip) (o : Owner) :
    (joinQueue e c).waiting o = c.waiting o := by
  cases o <;> rfl

/-- An offer keeps the bound of the private queue. -/
theorem offer_queueOk {c : Chip} (e : Entry) (h : c.queueOk) : (offer e c).queueOk := by
  rcases offer_cases e c with ⟨hl, _, _, he⟩ | he
  · simp only [Chip.queueOk, he, joinQueue_queue, List.length_append, List.length_singleton]
    omega
  · simpa [Chip.queueOk, he] using h

theorem formEntry_queueOk {c : Chip} (o : Owner) (p : Purpose) (w : Work) (h : c.queueOk) :
    (formEntry o p w c).queueOk :=
  offer_queueOk _ h

/-- A place given keeps the bound of the private queue. -/
theorem givePlace_queueOk {c : Chip} (h : c.queueOk) : (givePlace c).queueOk := by
  unfold givePlace
  split
  · next hp =>
    split
    · simp only [Chip.queueOk, joinQueue_queue, putWaiting_queue, List.length_append,
        List.length_singleton]
      simp only [Chip.hasPlace, decide_eq_true_eq] at hp
      omega
    · exact h
  · exact h

/-! ### The works of each unit (R8) -/

/-- An entry that is no inquiry record joins as it was formed. -/
theorem takenEntry_eq {e : Entry} {c : Chip} (h : ∀ k i a, e.work ≠ .inquiry k i a) : takenEntry c e = e := by
  unfold takenEntry
  split
  · next k i a hw => exact absurd hw (h k i a)
  · rfl

/-- An offer puts the entry's work after its unit's others, in the queue or among those that wait, and leaves
the works of every other unit. -/
theorem offer_worksOf {e : Entry} {c : Chip} (h : takenEntry c e = e) (o : Owner) :
    (offer e c).worksOf o = c.worksOf o ++ if e.owner = o then [e.work] else [] := by
  rcases offer_cases e c with ⟨_, hw, _, hj⟩ | hj
  · by_cases ho : e.owner = o
    · subst ho
      simp [hj, Chip.worksOf, joinQueue_queue, h, hw]
    · simp [hj, Chip.worksOf, joinQueue_queue, h, ho]
  · by_cases ho : e.owner = o
    · subst ho
      simp [hj, Chip.worksOf]
    · have hk : (c.putWaiting e.owner (c.waiting e.owner ++ [e])).waiting o = c.waiting o := by
        cases he : e.owner <;> cases o <;> first | rfl | exact absurd he ho
      simp [hj, Chip.worksOf, hk, ho]

/-- A formed deposit, the same for the works: its unit has formed it, no other unit anything. -/
theorem formDeposit_worksOf (o r : Owner) (p : Purpose) (a : Nat) (ws : List Word) (c : Chip) :
    (formDeposit o p a ws c).worksOf r =
      c.worksOf r ++ if o = r then [.deposit a (unstruck ws)] else [] := by
  have hc : (c.withPath { c.path with serial := c.path.serial + 1 }).worksOf r = c.worksOf r := by
    cases r <;> rfl
  rw [formDeposit, formEntry, offer_worksOf (takenEntry_eq (by simp)), hc]
  rfl

theorem formDeposit_formed (o : Owner) (p : Purpose) (a : Nat) (ws : List Word) (c : Chip) :
    c.formed (formDeposit o p a ws c) o [.deposit a (unstruck ws)] := by
  simp [Chip.formed, formDeposit_worksOf]

theorem formDeposit_other {o r : Owner} (h : r ≠ o) (p : Purpose) (a : Nat) (ws : List Word) (c : Chip) :
    c.formed (formDeposit o p a ws c) r [] := by
  simp [Chip.formed, formDeposit_worksOf, Ne.symm h]

/-- An offer lets the queue and the waiting lists only grow. -/
theorem offer_grew (e : Entry) (c : Chip) : c.grew (offer e c) := by
  rcases offer_cases e c with ⟨_, _, _, hj⟩ | hj
  · rw [hj]
    exact ⟨⟨_, rfl⟩, fun o => ⟨[], by simp⟩, rfl, rfl⟩
  · rw [hj]
    refine ⟨⟨[], by simp⟩, fun o => ?_, by cases e.owner <;> rfl, by cases e.owner <;> rfl⟩
    by_cases ho : e.owner = o
    · subst ho
      exact ⟨[e], by simp⟩
    · refine ⟨[], ?_⟩
      cases he : e.owner <;> cases o <;> first | exact absurd he ho | simp [Chip.putWaiting, Chip.waiting]

theorem formDeposit_grew (o : Owner) (p : Purpose) (a : Nat) (ws : List Word) (c : Chip) :
    c.grew (formDeposit o p a ws c) := by
  obtain ⟨hq, hw, hb, ha⟩ := offer_grew
    { id := c.path.serial, owner := o, purpose := p, work := .deposit a (unstruck ws) }
    (c.withPath { c.path with serial := c.path.serial + 1 })
  exact ⟨hq, fun r => by have := hw r; cases r <;> exact this, hb, ha⟩

/-- A formed deposit's entry is in the queue or waits in its unit. -/
theorem formDeposit_mem (o : Owner) (p : Purpose) (a : Nat) (ws : List Word) (c : Chip) :
    ∃ e ∈ (formDeposit o p a ws c).path.queue ++ (formDeposit o p a ws c).waiting o,
      e.owner = o ∧ e.purpose = p ∧ e.work = .deposit a (unstruck ws) := by
  unfold formDeposit formEntry
  generalize c.withPath { c.path with serial := c.path.serial + 1 } = d
  generalize he : Entry.mk c.path.serial o p (.deposit a (ws.map fun w => (w, false))) = e
  have hw : takenEntry d e = e := by subst he; rfl
  have ho : e.owner = o := by subst he; rfl
  refine ⟨e, ?_, ho, by subst he; rfl, by subst he; rfl⟩
  rcases offer_cases e d with ⟨_, _, _, h⟩ | h
  · simp [h, joinQueue_queue, hw]
  · simp [h, ho]

/-- Growth in two steps, and works formed in two steps. -/
theorem grew_trans {c d f : Chip} (h : c.grew d) (k : d.grew f) : c.grew f := by
  obtain ⟨⟨l, hq⟩, hw, hb, ha⟩ := h
  obtain ⟨⟨m, kq⟩, kw, kb, ka⟩ := k
  refine ⟨⟨l ++ m, by rw [kq, hq, List.append_assoc]⟩, fun o => ?_, kb.trans hb, ka.trans ha⟩
  obtain ⟨x, hx⟩ := hw o
  obtain ⟨y, ky⟩ := kw o
  exact ⟨x ++ y, by rw [ky, hx, List.append_assoc]⟩

theorem formed_trans {c d f : Chip} {o : Owner} {l m : List Work} (h : c.formed d o l) (k : d.formed f o m) :
    c.formed f o (l ++ m) := by
  simp only [Chip.formed] at *
  rw [k, h, List.append_assoc]

/-! ### Events (R176, R178) -/

/-- An event of a class that is not recorded forms nothing. -/
theorem recordEvent_masked {v : Event} {c : Chip} (h : maskHas c.ctl.recordMask v.cls = false) :
    recordEvent v c = c := by
  simp [recordEvent, h]

/-- An event that finds no room joins the overflow set and is counted as lost; no record is formed. -/
theorem recordEvent_lost {v : Event} {c : Chip} (hm : maskHas c.ctl.recordMask v.cls = true)
    (hr : c.ringRoom < v.size) :
    recordEvent v c = c.withEvt { c.evt with
      overflow := maskAdd c.evt.overflow v.cls
      lost := satAdd 65535 c.evt.lost 1 } := by
  simp [recordEvent, hm, hr]

/-- An event that finds room is formed. -/
theorem recordEvent_formed {v : Event} {c : Chip} (hm : maskHas c.ctl.recordMask v.cls = true)
    (hr : v.size ≤ c.ringRoom) : recordEvent v c = formEvent v c := by
  simp [recordEvent, hm, Nat.not_lt.mpr hr]

@[simp] theorem formRecord_evt (k : EvClass) (n : Nat) (b : List Word) (c : Chip) :
    (formRecord k n b c).evt = { c.evt with
      producer := (c.evt.producer + 1) % c.ctl.unit.ringSize
      sequence := (c.evt.sequence + 1) % 256 } := by
  simp [formRecord]

/-- An event as its records show it. -/
def Event.logged (v : Event) : Logged :=
  { cls := v.cls
    kind := v.kind
    w1 := v.body.getD 0 0
    w2 := v.body.getD 1 0
    w3 := v.body.getD 2 0
    addr := v.addr }

/-- Everything a record formed does to the event unit and to the works. -/
theorem formRecord_worksOf (k : EvClass) (n : Nat) (b : List Word) (c : Chip) (o : Owner) :
    (formRecord k n b c).worksOf o = c.worksOf o ++ if Owner.event = o then
      [.deposit (c.base + c.ctl.unit.eventWord + 4 * c.evt.producer)
        (unstruck (wordNat (k.code * 8192 + n * 256 + c.evt.sequence) :: b))] else [] := by
  have h := formDeposit_worksOf .event o .eventRecord (c.base + c.ctl.unit.eventWord + 4 * c.evt.producer)
    (wordNat (k.code * 8192 + n * 256 + c.evt.sequence) :: b) c
  rw [← h]
  cases o <;> rfl

theorem formRecord_grew (k : EvClass) (n : Nat) (b : List Word) (c : Chip) : c.grew (formRecord k n b c) := by
  obtain ⟨hq, hw, hb, ha⟩ := formDeposit_grew .event .eventRecord
    (c.base + c.ctl.unit.eventWord + 4 * c.evt.producer)
    (wordNat (k.code * 8192 + n * 256 + c.evt.sequence) :: b) c
  exact ⟨hq, fun o => by have := hw o; cases o <;> exact this, hb, ha⟩

/-- Everything an event does to the event unit and to the works: what `Chip.logStep` says of it. -/
theorem recordEvent_logStep (v : Event) (c : Chip) :
    (recordEvent v c).evt = (c.logStep c.evt v.logged).1 ∧
      c.formed (recordEvent v c) .event (c.logStep c.evt v.logged).2 := by
  have hs : c.ctl.unit.ringSize = 2 ^ (5 + c.ctl.unit.c) := rfl
  have hroom : (c.evt.consumer + 2 ^ (5 + c.ctl.unit.c) - c.evt.producer % 2 ^ (5 + c.ctl.unit.c) - 1) %
      2 ^ (5 + c.ctl.unit.c) = c.ringRoom := rfl
  have hb : v.body = [v.body.getD 0 0, v.body.getD 1 0, v.body.getD 2 0] := rfl
  by_cases hm : maskHas c.ctl.recordMask v.cls = true
  · cases ha : v.addr with
    | none =>
      by_cases hr : c.ringRoom < 1
      · rw [recordEvent_lost hm (by simpa [Event.size, ha] using hr)]
        simp [Chip.logStep, Event.logged, hm, ha, hroom, hr, satAdd, Chip.formed, Chip.worksOf]
        rfl
      · rw [recordEvent_formed hm (by simpa [Event.size, ha] using Nat.not_lt.mp hr)]
        simp only [formEvent, ha, formProducer, Chip.formed, formDeposit_worksOf, formRecord_worksOf]
        simp [Chip.logStep, Event.logged, hm, ha, hroom, hr, hs, Chip.base, Event.body]
    | some x =>
      by_cases hr : c.ringRoom < 2
      · rw [recordEvent_lost hm (by simpa [Event.size, ha] using hr)]
        simp [Chip.logStep, Event.logged, hm, ha, hroom, hr, satAdd, Chip.formed, Chip.worksOf]
        rfl
      · rw [recordEvent_formed hm (by simpa [Event.size, ha] using Nat.not_lt.mp hr)]
        simp only [formEvent, ha, formProducer, Chip.formed, formDeposit_worksOf, formRecord_worksOf]
        simp [Chip.logStep, Event.logged, hm, ha, hroom, hr, hs, Chip.base, Event.body]
  · simp only [Bool.not_eq_true] at hm
    rw [recordEvent_masked hm]
    simp [Chip.logStep, Event.logged, hm, Chip.formed]

/-- An event forms nothing for the other units. -/
theorem recordEvent_other {o : Owner} (h : o ≠ .event) (v : Event) (c : Chip) :
    c.formed (recordEvent v c) o [] := by
  have hf : ∀ k n b d, (formRecord k n b d).worksOf o = d.worksOf o :=
    fun k n b d => by simp [formRecord_worksOf, Ne.symm h]
  have hp : ∀ l d, (formProducer l d).worksOf o = d.worksOf o :=
    fun l d => by simp [formProducer, formDeposit_worksOf, Ne.symm h]
  unfold recordEvent formEvent Chip.formed
  split
  · simp
  · split
    · cases o <;> simp [Chip.worksOf, Chip.waiting]
    · split <;> simp [hf, hp]

/-- An event lets the queue and the waiting lists only grow. -/
theorem recordEvent_grew (v : Event) (c : Chip) : c.grew (recordEvent v c) := by
  have hp : ∀ l (d : Chip), d.grew (formProducer l d) := fun l d => formDeposit_grew _ _ _ _ _
  have hz : ∀ d : Chip, d.path = c.path → c.grew d := fun d h =>
    ⟨⟨[], by simp [h]⟩, fun o => ⟨[], by cases o <;> simp [Chip.waiting, h]⟩, by rw [h], by rw [h]⟩
  unfold recordEvent formEvent
  split
  · exact hz _ rfl
  · split
    · exact hz _ rfl
    · split
      · exact grew_trans (formRecord_grew _ _ _ _) (hp _ _)
      · exact grew_trans (grew_trans (formRecord_grew _ _ _ _) (formRecord_grew _ _ _ _)) (hp _ _)

/-- No event touches NOTICE, the records written, or the indices the firmware and NOTICE go by: those change
when a producer deposit ends (R176). -/
theorem recordEvent_notice (v : Event) (c : Chip) :
    (recordEvent v c).evt.notice = c.evt.notice ∧ (recordEvent v c).evt.unread = c.evt.unread ∧
      (recordEvent v c).evt.shown = c.evt.shown ∧ (recordEvent v c).evt.consumer = c.evt.consumer := by
  unfold recordEvent formEvent
  split
  · simp
  · split
    · simp
    · split <;> simp

/-- An event keeps the bound of the private queue. -/
theorem recordEvent_queueOk {c : Chip} (v : Event) (h : c.queueOk) : (recordEvent v c).queueOk := by
  have hr : ∀ (k : EvClass) (n : Nat) (b : List Word) (d : Chip), d.queueOk → (formRecord k n b d).queueOk :=
    fun k n b d hd => formEntry_queueOk (c := d) .event .eventRecord _ hd
  unfold recordEvent formEvent
  split
  · exact h
  · split
    · exact h
    · split
      · exact formEntry_queueOk _ _ _ (hr _ _ _ _ h)
      · exact formEntry_queueOk _ _ _ (hr _ _ _ _ (hr _ _ _ _ h))

/-- An event leaves NOTICE as exact as it was (R179). -/
theorem recordEvent_noticeOk {c : Chip} (v : Event) (h : c.noticeOk) : (recordEvent v c).noticeOk := by
  obtain ⟨h1, h2, _⟩ := recordEvent_notice v c
  simpa [Chip.noticeOk, h1, h2] using h

/-- NOTICE re-driven is exact. -/
theorem redriveNotice_noticeOk (c : Chip) : (redriveNotice c).noticeOk := rfl

/-! ### Triggers received and not yet taken (R123) -/

/-- A trigger received joins the others; nothing else changes. -/
@[simp] theorem receiveTrigger_received (v : Trigger) (c : Chip) :
    (receiveTrigger v c).rct.received = c.rct.received ++ [v] := rfl

/-- Everything an operation under `receiving` can do: what it does from no trigger received, with what had been
received before restored. -/
theorem receiving_eq (f : Give → Chip → Chip) (c : Chip) :
    let d := f receiveTrigger (c.withRct { c.rct with received := [] })
    receiving f c = (d.rct.received, d.withRct { d.rct with received := c.rct.received }) := rfl

@[simp] theorem receiving_received (f : Give → Chip → Chip) (c : Chip) :
    (receiving f c).2.rct.received = c.rct.received := rfl

/-! ### Replies (R26) -/

/-- A reply leaves everything but the queue and the command in progress. -/
theorem replyAfter_keeps (tag : Octet) (l : List Nat) (d : Detail) (n : Nat) (c : Chip) :
    c.controlKept (replyAfter tag l d n c) ∧ (replyAfter tag l d n c).evt = c.evt ∧
      (replyAfter tag l d n c).frm = c.frm ∧ (replyAfter tag l d n c).stn = c.stn ∧
      (replyAfter tag l d n c).hlth = c.hlth ∧ (replyAfter tag l d n c).prt = c.prt ∧
      (replyAfter tag l d n c).rct = c.rct ∧ (replyAfter tag l d n c).pins = c.pins ∧
      (replyAfter tag l d n c).cab = c.cab ∧ (replyAfter tag l d n c).resetAsserted = c.resetAsserted := by
  simp [replyAfter, Chip.controlKept, Chip.setCommand]

/-- The reply is formed with its result, tag, detail and count, as the control unit's next work. -/
theorem replyAfter_formed (tag : Octet) (l : List Nat) (d : Detail) (n : Nat) (c : Chip) :
    c.formed (replyAfter tag l d n c) .control [c.replyWork tag d n] :=
  formDeposit_formed .control (.reply l) (c.base + 5)
    [octetPair (if d = .none then 1 else 2) tag.toNat, wordNat d.code, wordNat n]
    (c.setCommand (some { tag := tag, phase := .replying }))

theorem replyAfter_replied (tag : Octet) (l : List Nat) (d : Detail) (n : Nat) (c : Chip) :
    (replyAfter tag l d n c).replied tag d n := by
  refine ⟨by simp [replyAfter, Chip.setCommand], ?_⟩
  obtain ⟨e, hm, _, hp, hw⟩ := formDeposit_mem .control (.reply l) (c.base + 5)
    [octetPair (if d = .none then 1 else 2) tag.toNat, wordNat d.code, wordNat n]
    (c.setCommand (some { tag := tag, phase := .replying }))
  refine ⟨e, hm, ⟨l, hp⟩, ?_⟩
  simpa [replyAfter, Chip.replyWork, Chip.base, Chip.setCommand] using hw

theorem reply_replied (tag : Octet) (k : Nat) (d : Detail) (n : Nat) (c : Chip) :
    (reply tag k d n c).replied tag d n :=
  replyAfter_replied _ _ _ _ _

end Sys2Proof.Machine
end

