-- ==== Sys2Proof/WellFormed.lean ====
section
/-! DEFINITION. Which commands are well formed: operands in the ranges the spec gives, byte enables and owner
fields as the row's form of access has them. A command that is not well formed still has a meaning: the
part takes an access by its pins. -/

namespace Sys2Proof

/-- The codes of the command table (section 2.7). -/
def knownCodes : List Nat :=
  [0x01, 0x02, 0x03, 0x04, 0x05, 0x06, 0x10, 0x11, 0x12, 0x20, 0x21, 0x22, 0x23, 0x30, 0x31, 0x32, 0x40,
    0x41, 0x42]

/-- Bits 15–14 of a status word are PROCESSOR, or DONE (section 3.1). -/
def ownerIsOne (d : Word) : Bool := decide (Machine.bitsOf d 14 2 = 1)

/-- A number operand is below its bound: trunks 0–3, jobs 0–31, timers 0–3, rings 0–2, lines 0–7, printers
0–7, reactions 0–15. -/
def Instr.inRange : Instr → Bool
  | .holdExpiry t => decide (t < 4)
  | .trialExpiry t => decide (t < 4)
  | .clearCountdownExpiry t => decide (t < 4)
  | .idleCountdownExpiry j => decide (j < 32)
  | .graceCountdownExpiry j => decide (j < 32)
  | .timerExpiry k => decide (k < 4)
  | .ringRecordCommit k _ => decide (k < 3)
  | .lineRecordCommit l _ _ => decide (l < 8)
  | .timerRecordCommit k _ => decide (k < 4)
  | .printerRecordCommit p _ => decide (p < 8)
  | .reactionRecordCommit r _ => decide (r < 16)
  | _ => true

/-- A write that some unit is shown asserts a byte enable (R4). -/
def Instr.enabled : Instr → Bool
  | .strayWrite _ _ be _ => decide (be ≠ 0)
  | .headerCapture _ _ be _ => decide (be ≠ 0)
  | .cancellingWriteHeld _ _ be _ => decide (be ≠ 0)
  | .cancellingWriteReleasing _ _ be _ => decide (be ≠ 0)
  | _ => true

/-- A status word's owner field is the one its row is about (R39, R93, R146). -/
def Instr.ownerOk : Instr → Bool
  | .receiveCompletion _ _ d => ownerIsOne d
  | .transmitGuard _ d => !ownerIsOne d
  | .printerCompletion _ d => ownerIsOne d
  | _ => true

/-- A stray write is an engine's (R18). -/
def Instr.masterOk : Instr → Bool
  | .strayWrite m _ _ _ => decide (m ≠ .processor)
  | _ => true

/-- An unknown command's code is not in the table (R26). -/
def Instr.codeOk : Instr → Bool
  | .unknownCommand code _ => !knownCodes.contains code.toNat
  | _ => true

/-- A well-formed command. -/
def Instr.wf (i : Instr) : Bool := i.inRange && i.enabled && i.ownerOk && i.masterOk && i.codeOk

end Sys2Proof
end

