-- ==== Sys2Proof/Tests/Slice0.lean ====
section
/-! SUPPORT. The package's own tests. First the well-formedness checks, each refusing an ill-formed term; then
worked values of the spec, at most one step each; then, for each obligation that has hypotheses, states and
operands that meet them, clause by clause. -/

namespace Sys2Proof.Tests

open Sys2Proof Sys2Proof.Machine

/-! ### Well-formedness: what each check refuses -/

theorem test_wf_accepts : (Instr.holdExpiry 3).wf = true ∧ (Instr.timerRecordCommit 3 0).wf = true ∧
    (Instr.unknownCommand 0x7F 1).wf = true ∧ (Instr.strayWrite .printEngine 0 2 0).wf = true := by decide

theorem test_wf_inRange_refuses : (Instr.holdExpiry 4).inRange = false ∧
    (Instr.trialExpiry 4).inRange = false ∧ (Instr.clearCountdownExpiry 4).inRange = false ∧
    (Instr.idleCountdownExpiry 32).inRange = false ∧ (Instr.graceCountdownExpiry 32).inRange = false ∧
    (Instr.timerExpiry 4).inRange = false ∧ (Instr.ringRecordCommit 3 0).inRange = false ∧
    (Instr.lineRecordCommit 8 0 0).inRange = false ∧ (Instr.timerRecordCommit 4 0).inRange = false ∧
    (Instr.printerRecordCommit 8 0).inRange = false ∧ (Instr.reactionRecordCommit 16 0).inRange = false := by
  decide

theorem test_wf_enabled_refuses : (Instr.strayWrite .coaxEngine 7 0 0).enabled = false ∧
    (Instr.headerCapture .coax 9 0 0).enabled = false ∧
    (Instr.cancellingWriteHeld .processor 9 0 0).enabled = false ∧
    (Instr.cancellingWriteReleasing .processor 9 0 0).enabled = false := by decide

theorem test_wf_ownerOk_refuses : (Instr.receiveCompletion .coax 9 0x8000).ownerOk = false ∧
    (Instr.transmitGuard 9 0x4000).ownerOk = false ∧ (Instr.printerCompletion 9 0xC000).ownerOk = false := by
  decide

theorem test_wf_masterOk_refuses : (Instr.strayWrite .processor 7 3 0).masterOk = false := by decide

theorem test_wf_codeOk_refuses : (Instr.unknownCommand 0x42 1).codeOk = false := by decide

theorem test_wf_refuses : (Instr.holdExpiry 4).wf = false ∧ (Instr.headerCapture .coax 9 0 0).wf = false ∧
    (Instr.transmitGuard 9 0x4000).wf = false ∧ (Instr.strayWrite .processor 7 3 0).wf = false ∧
    (Instr.unknownCommand 0x42 1).wf = false := by decide

/-! ### Small states -/

/-- The machine after reset, its part changed. -/
def made (f : Chip → Chip) : State := State.reset.onChip f

/-- The control unit changed. -/
def ctl (f : ControlUnit → ControlUnit) (c : Chip) : Chip := c.withCtl (f c.ctl)

/-- The unit record of section 6.7: NT 3, U 200, alias base 06:10:20:30:40:00, link type 7F31h. -/
def unit67 : UnitRec :=
  { UnitRec.builtIn with nt := 3, u := 200, aliasBase := 0x061020304000#48, linkType := 0x7F31#16 }

/-- In RUN with the unit record of section 6.7, rings at 10000h, 11000h and 12000h, no record mask. -/
def running (c : Chip) : Chip :=
  ctl (fun v => { v with
    mode := .run, unit := unit67, unitCommitted := true, recordMask := 0
    coaxRing := some { base := 0x10000, e := 5 }, pairRing := some { base := 0x11000, e := 5 }
    transmitRing := some { base := 0x12000, e := 5 } }) c

/-- A header's octets, all captured. -/
def heads (l : List Octet) : Table (Option Octet) :=
  (List.range l.length).map fun k => (k, some (l.getD k 0))

/-- A held coax frame on trunk `t` in descriptor 0, with its header. -/
def coaxSlot (t : Nat) (len : Word) (l : List Octet) : Slot :=
  { id := 0, index := 0, word0 := 0x10000, saved := wordNat (t * 4096), lo := some 0, hi := some 2,
    len := some len, octets := heads l, payload := none, phase := .heldWaiting, fixed := none,
    fetching := false }

/-- The table and the trunks of section 6.7. -/
def walk (c : Chip) : Chip :=
  let leg := fun t => { Station.blank with kind := .legacy, trunk := t }
  (((running c).withHlth { c.hlth with trunks :=
      [(0, Trunk.fresh), (1, { Trunk.fresh with state := .watch }),
        (2, { Trunk.fresh with state := .isolated })] }).withStn { c.stn with table :=
      [(12, leg 1), (37, leg 0), (51, { leg 2 with presence := .unreachable }),
        (200, { Station.blank with kind := .unit }),
        (201, { Station.blank with kind := .proxy, addr := 0x0A001100000A#48 })] }).withPath
    { c.path with serial := 1 }

/-- The walk-through's state with a held coax frame. -/
def walkHeld (v : Slot) : State := made fun c => (walk c).putHeld .coax [v]

/-- The verdict words that stand in the queue after stage two of the coax frame. -/
def verdictQueued (s : State) : Option Work :=
  match exec (.stageTwo .coax) s with
  | .next t => t.chip.path.queue.head?.map (·.work)
  | _ => none

/-- The part after a command, the part before it where the machine stops. -/
def after (i : Instr) (s : State) : Chip :=
  match exec i s with
  | .next t => t.chip
  | _ => s.chip

/-- A word of memory after a command. -/
def wordAfter (i : Instr) (a : Nat) (s : State) : Word :=
  match exec i s with
  | .next t => readWord t.mem a
  | _ => 0

/-! ### Worked values of the spec -/

/-- The worked layout of section 2.2: E = 196 and I = 452; the largest layout has E = 320 and I = 1344. -/
theorem test_layout : UnitRec.eventWord { UnitRec.builtIn with np := 3, nr := 5, c := 1 } = 196 ∧
    UnitRec.inquiryWord { UnitRec.builtIn with np := 3, nr := 5, c := 1 } = 452 ∧
    UnitRec.eventWord { UnitRec.builtIn with np := 8, nr := 16, c := 3 } = 320 ∧
    UnitRec.inquiryWord { UnitRec.builtIn with np := 8, nr := 16, c := 3 } = 1344 := by decide

/-- Section 5.2: P_lo 150, P_hi 160, U 155 gives 150–154 and 156–160; P_lo 100, P_hi 254, U 120 gives 64
numbers, the last of them 164. -/
theorem test_proxy_range :
    UnitRec.proxyRange { UnitRec.builtIn with pLo := 150, pHi := 160, u := 155 } =
      [150, 151, 152, 153, 154, 156, 157, 158, 159, 160] ∧
    (UnitRec.proxyRange { UnitRec.builtIn with pLo := 100, pHi := 254, u := 120 }).length = 64 ∧
    (UnitRec.proxyRange { UnitRec.builtIn with pLo := 100, pHi := 254, u := 120 }).getLast? = some 164 ∧
    UnitRec.proxyRange { UnitRec.builtIn with pLo := 40, pHi := 30 } = [] := by decide +kernel

/-- The worked alias case of section 5.1. -/
theorem test_alias_readings : readDest unit67 0x061020304025#48 0 = some (37, false) ∧
    readDest unit67 0x0610203040C8#48 0 = some (200, true) ∧
    readDest unit67 0x061020304000#48 0 = some (200, true) ∧
    readDest unit67 0x0610203040FF#48 0 = none ∧ readDest unit67 0x061020304125#48 0 = none ∧
    readDest unit67 0xFFFFFFFFFFFF#48 51 = some (51, false) := by decide

/-- The worked header check of section 3.2: check octet 54 is good, source 13 is bad, 130 octets are
MALFORMED. -/
theorem test_header_check : (coaxSlot 0 136 [37, 12, 17, 7, 0, 128, 0, 54]).headerGood .coax = true ∧
    (coaxSlot 0 136 [37, 12, 17, 7, 0, 128, 0, 54]).malformed = false ∧
    (coaxSlot 0 136 [37, 13, 17, 7, 0, 128, 0, 54]).headerGood .coax = false ∧
    (coaxSlot 0 130 [37, 12, 17, 7, 0, 128, 0, 54]).malformed = true := by decide

/-- Frame 1 of section 6.7: 020Ch 2500h 0001h 0000h. -/
theorem test_forward_coax : verdictQueued (walkHeld (coaxSlot 1 24 [37, 12, 1, 0, 0, 16, 0, 189])) =
    some (.deposit 0x10004 (unstruck [0x020C, 0x2500, 0x0001, 0])) := by decide +kernel

/-- Frame 2 of section 6.7: 0525h 5A00h 0012h 0000h. -/
theorem test_flood : verdictQueued (walkHeld (coaxSlot 0 24 [90, 37, 1, 0, 0, 16, 0, 111])) =
    some (.deposit 0x10004 (unstruck [0x0525, 0x5A00, 0x0012, 0])) := by decide +kernel

/-- Frame 4 of section 6.7: 0325h 0A00h 1100h 000Ah. -/
theorem test_forward_pair : verdictQueued (walkHeld (coaxSlot 0 24 [201, 37, 1, 0, 0, 16, 0, 0])) =
    some (.deposit 0x10004 (unstruck [0x0325, 0x0A00, 0x1100, 0x000A])) := by decide +kernel

/-- The guard on the flood, section 6.7: with trunk 1 cut 0200h reaches memory as 4001h, with trunk 1 in
WATCH as 0200h. -/
theorem test_guard : wordAfter (.transmitGuard 0x12048 0x0200) 0x12048
      (made fun c => (walk c).putTrunk 1 { Trunk.fresh with state := .isolated }) = 0x4001 ∧
    wordAfter (.transmitGuard 0x12048 0x0200) 0x12048 (made walk) = 0x0200 := by decide +kernel

/-- A part in RUN with trunk 1 in a state and at a score. -/
def scored (st : TrunkState) (n : Nat) : State :=
  made fun c => (running c).putTrunk 1 { Trunk.fresh with state := st, score := n }

/-- Step 8 of section 7.6: 384 and a REFLECTION give 504 and WATCH. -/
theorem test_score_watch : (after (.receiveCompletion .coax 0x10000 0x5500) (scored .inService 384)).trunk 1 =
    { Trunk.fresh with state := .watch, score := 504 } := by decide +kernel

/-- Step 12 of section 7.6: 986 and a BODY_CRC give 1046, ISOLATED, one strike and a hold of 500 ticks. -/
theorem test_score_isolated : (after (.receiveCompletion .coax 0x10000 0x5100) (scored .watch 986)).trunk 1 =
    { Trunk.fresh with state := .isolated, score := 1046, strikes := 1, countdown := some 500 } := by
  decide +kernel

/-- Steps 9 and 10 of section 7.6, and the limit case of a small score: 504 decays to 441, 441 to 386, 7 to
6. -/
theorem test_decay : decayLoss 504 32 = 504 - 441 ∧ decayLoss 441 32 = 441 - 386 ∧ decayLoss 7 32 = 1 := by
  decide

/-- Section 7.7: a station score of 78 and a flap's 64 give 142 and QUARANTINED. -/
theorem test_station_quarantine : ((chargeStation top 21 64 ((running Chip.reset).putStation 21
    { Station.blank with kind := .legacy, score := 78 })).station 21).score = 142 ∧
    ((chargeStation top 21 64 ((running Chip.reset).putStation 21
    { Station.blank with kind := .legacy, score := 78 })).station 21).quarantined = true := by decide +kernel

/-- Section 8.10: the second, third and fourth strikes give holds of 10 s and 20 s and a lockout. -/
theorem test_holds : HealthRec.builtIn.hold 2 = 10 ∧ HealthRec.builtIn.hold 3 = 20 ∧
    (Trunk.intoIsolation HealthRec.builtIn { Trunk.fresh with strikes := 3 }).state = .lockedOut := by decide

/-- Section 8.10 at 120.00: the expiry of the hold puts the trunk on TRIAL at 500 with 3000 ticks. -/
theorem test_hold_expiry : (after (.holdExpiry 1) (made fun c => (running c).putTrunk 1
    { Trunk.fresh with state := .isolated, score := 61, strikes := 3, countdown := some 0 })).trunk 1 =
    { Trunk.fresh with state := .trial, score := 500, strikes := 3, countdown := some 3000 } := by
  decide +kernel

/-- The worked overflow of section 12.4: 31 records consumed, OVERFLOW formed at index 31, the producer at 0,
NOTICE high. -/
theorem test_overflow :
    let c := after (.eventConsumerIndex 31) (made fun c => (ctl (fun v => { v with noticeMask := 1 }) c).withEvt
      { c.evt with
        producer := 31, shown := 31, overflow := 5, lost := 2, notice := true
        unread := List.replicate 3 .trunk ++ List.replicate 28 .station })
    c.evt.producer = 0 ∧ c.evt.unread = [] ∧ c.evt.notice = false ∧ c.evt.overflow = 0 ∧
    c.path.queue.head?.map (·.work) =
      some (.deposit (128 + 4 * 31) (unstruck [0xC500, 0, 0x0500, 2])) := by decide +kernel

/-! ### Witnesses: states and operands that meet the obligations' hypotheses -/

/-- A deposit of the event unit's, and a fetch of the frame unit's. -/
def dep (a : Nat) (ws : List Word) : Entry := ⟨0, .event, .uncounted, .deposit a (unstruck ws)⟩
def fet (a n : Nat) : Entry := ⟨0, .frame, .descriptorFetch .coax 9, .fetch a n⟩

/-- The part with entries queued, and with an access held by WAIT. -/
def queued (l : List Entry) (c : Chip) : Chip := c.withPath { c.path with queue := l }
def stretched (x : Access) (n : Nat) (c : Chip) : Chip :=
  c.withPath { c.path with bus := some { access := x, owed := n } }

/-- The part with the jobs and the spool given, and one printer in force, READY with a claim. -/
def printing (js : Table Job) (sp : Table (Option SpoolEntry)) (k : Option Nat) (c : Chip) : Chip :=
  (ctl (fun v => { v with unit := { v.unit with np := 1 } }) (running c)).withPrt
    { c.prt with
      jobs := js, spool := sp
      printers := [(0, { Printer.blank with state := .stalled, claim := k })] }

/-- What holds of the value an unlisted index reads as, and of every value listed, holds of every value read. -/
theorem tget_all {α : Type} {d : α} {t : Table α} {P : α → Prop} (hd : P d) (ht : ∀ e ∈ t, P e.2) (i : Nat) :
    P (tget d t i) := by
  induction t with
  | nil => exact hd
  | cons e t ih =>
    unfold tget
    split
    · exact ht e (.head _)
    · exact ih fun e h => ht e (.tail _ h)

/-- A value read is the one an unlisted index reads as, or stands in the table at its index. -/
theorem tget_mem {α : Type} (d : α) (t : Table α) (i : Nat) : tget d t i = d ∨ (i, tget d t i) ∈ t := by
  induction t with
  | nil => exact .inl rfl
  | cons e t ih =>
    unfold tget
    split
    · next h => exact .inr (h ▸ .head _)
    · exact ih.imp_right (.tail _)

/-- Job 0 of station 12 on printer 0, PRINTING, and a spool entry of its. -/
def job0 (sp : List Nat) : Job := { Job.blank with state := .printing, owner := 12, spool := sp }
def entry0 (ring : Bool) : SpoolEntry :=
  { addr := 0x20004, len := 128, job := 0, srcRing := 1, srcIndex := 0, inRing := ring,
    ringIndex := if ring then some 0 else none, ringCount := 0, stamp := 0 }

/-- Job 0 with entry 0, IN_RING or not, the printer's claimant or not. -/
def cancelling (ring : Bool) (k : Option Nat) : State :=
  made (printing [(0, job0 [0])] [(0, some (entry0 ring))] k)

theorem witness_StepPerformsTheFrontCommand : State.reset.pending = [] := rfl

theorem witness_ResetFallsAndIsReleased_fall :
    (State.reset.chip.path.bus = none ∧ State.reset.chip.path.queue = []) ∧
    ((made (queued [fet 5 3])).chip.path.queue = [fet 5 3] ∧ (fet 5 3).work = .fetch 5 3 ∧
      (made (queued [fet 5 3])).chip.path.bus = none) ∧
    ((made (queued [dep 5 [1, 2]])).chip.path.queue = [dep 5 [1, 2]] ∧
      (dep 5 [1, 2]).work = .deposit 5 (unstruck [1, 2]) ∧
      (made (queued [dep 5 [1, 2]])).chip.path.bus = none) ∧
    ∀ write, (made (stretched (classed Chip.reset .processor write 9 3 0) 1)).chip.path.bus =
        some ⟨classed Chip.reset .processor write 9 3 0, 1⟩ ∧
      (made (stretched (classed Chip.reset .processor write 9 3 0) 1)).chip.path.asking = [] ∧
      (classed Chip.reset .processor write 9 3 0).write = write := by decide

theorem witness_ResetFallsAndIsReleased : State.reset.chip.resetAsserted = false ∧
    (made Chip.inReset).chip.resetAsserted = true ∧ (∃ t, exec (.pinReset true) State.reset = .next t) ∧
    (∃ p, (made Chip.inReset).chip.shown (.masterWrite .processor 0 3 7) = some p ∧ p.write = true) ∧
    ∃ p, (made Chip.inReset).chip.shown (.masterRead .processor 0 3) = some p ∧ p.write = false :=
  ⟨rfl, rfl, ⟨_, rfl⟩, ⟨_, rfl, rfl⟩, ⟨_, rfl, rfl⟩⟩

/-- A part in RUN with trunk 1 at a countdown's last tick but one. -/
def ticking : State :=
  made fun c => (running c).putTrunk 1 { Trunk.fresh with state := .isolated, countdown := some 1 }

theorem witness_TicksAdvanceTheCounts : (State.reset.chip.ctl.mode ≠ .run ∧
      State.reset.chip.stn.secondDue = false ∧ State.reset.chip.hlth.decayDue = false ∧
      State.reset.chip.countdownDue .isolated 0 = false ∧ State.reset.chip.countdownDue .trial 0 = false ∧
      (State.reset.chip.trunk 0).clearCountdown ≠ some 0 ∧ (State.reset.chip.job 0).idle ≠ some 0 ∧
      (State.reset.chip.job 0).grace ≠ some 0 ∧ State.reset.chip.timerDue 0 = false) ∧
    ticking.chip.ctl.mode = .run ∧ ticking.chip.nothingDue ∧
    ticking.chip.noReactions ∧ ∀ l < 8, (ticking.chip.line l).record.fn = .printerReady →
      (ticking.chip.printer (ticking.chip.line l).record.obj).state ≠ .stalled :=
  ⟨by decide, rfl, ⟨rfl, rfl,
    tget_all (P := fun r : Trunk => r.countdown ≠ some 0 ∧ r.clearCountdown ≠ some 0) (by decide) (by decide),
    fun _ => ⟨nofun, nofun⟩, fun _ => rfl⟩, rfl, fun _ _ => nofun⟩

/-- A part at a second boundary with LEGACY entry 12 one second below the silence limit. -/
def aging : State := made fun c => (running c).withStn { c.stn with
  secondDue := true, table := [(12, { Station.blank with kind := .legacy, age := 119 })] }

theorem witness_SecondBoundaryAgesTheTable : aging.chip.stn.secondDue = true ∧
    (∀ n, (aging.chip.station n).openJob = none) ∧ (aging.chip.station 12).kind = .legacy := by
  exact ⟨rfl, tget_all (P := fun e : Station => e.openJob = none) rfl (by decide), by decide⟩

theorem witness_DecayTickLowersTheScores :
    (made fun c => (running c).withHlth { c.hlth with decayDue := true }).chip.hlth.decayDue = true ∧
    (made fun c => (running c).withHlth { c.hlth with decayDue := true }).chip.noReactions := ⟨rfl, rfl⟩

/-- A part in RUN with trunk 1 in a state, at the expiry of a countdown. -/
def expiring (st : TrunkState) (n k : Option Nat) : State := made fun c =>
  (running c).putTrunk 1 { Trunk.fresh with state := st, countdown := n, clearCountdown := k, strikes := 1 }

theorem witness_TrunkExpiriesMoveTheTrunk : State.reset.chip.noReactions ∧
    ((expiring .isolated (some 0) none).chip.noReactions ∧
      (expiring .isolated (some 0) none).chip.countdownDue .isolated 1 = true ∧
      (expiring .isolated (some 0) none).chip.noneToServe 1) ∧
    ((expiring .trial (some 0) none).chip.noReactions ∧
      (expiring .trial (some 0) none).chip.countdownDue .trial 1 = true) ∧
    ((expiring .inService none (some 0)).chip.noReactions ∧
      ((expiring .inService none (some 0)).chip.trunk 1).clearCountdown = some 0) :=
  ⟨rfl, ⟨rfl, by decide, fun _ _ h => nomatch h.1⟩, ⟨rfl, by decide⟩, ⟨rfl, by decide⟩⟩

/-- Job 0 at the expiry of its idle countdown: with text spooled, with text in the ring, with none; and at
that of its grace countdown. -/
def idling (sp : List Nat) (ring : Bool) : State := made (printing
  [(0, { job0 sp with idle := some 0 })] (if sp = [] then [] else [(0, some (entry0 ring))]) (some 0))
def gracing : State := made (printing
  [(0, { job0 [] with state := .suspended, resume := .waiting, grace := some 0 })] [] none)

theorem witness_JobCountdownExpiries :
    ((idling [0] false).chip.noReactions ∧ ((idling [0] false).chip.job 0).idle = some 0 ∧
      ∃ i ∈ ((idling [0] false).chip.job 0).spool, (idling [0] false).chip.entryInRing i = false) ∧
    ((idling [0] true).chip.noReactions ∧ ((idling [0] true).chip.job 0).idle = some 0 ∧
      ((idling [0] true).chip.job 0).spool ≠ [] ∧
      ∀ i ∈ ((idling [0] true).chip.job 0).spool, (idling [0] true).chip.entryInRing i = true) ∧
    ((idling [] false).chip.noReactions ∧ ((idling [] false).chip.job 0).idle = some 0 ∧
      ((idling [] false).chip.job 0).spool = [] ∧ ((idling [] false).chip.job 0).reason = none ∧
      ((idling [] false).chip.printer 0).claim = some 0 ∧ ((idling [] false).chip.printer 0).queue = [] ∧
      (idling [] false).chip.awaitingPrinter 0 = none) ∧
    (gracing.chip.noReactions ∧ (gracing.chip.job 0).grace = some 0 ∧ (gracing.chip.job 0).spool = [] ∧
      (gracing.chip.job 0).reason = none ∧ (gracing.chip.job 0).state ≠ .free ∧
      (gracing.chip.printer (gracing.chip.job 0).printer).claim ≠ some 0) :=
  ⟨⟨rfl, by decide⟩, ⟨rfl, by decide⟩, ⟨rfl, by decide⟩, ⟨rfl, by decide⟩⟩

/-- Timer 0 at its expiry, and with a NOTE reaction on it. -/
def timed : State := made fun c => (running c).putTimer 0
  { Timer.blank with record := { period := 1, repeats := true }, running := true }
def noted : State := made fun c =>
  ((ctl (fun v => { v with unit := { v.unit with nr := 1 }, recordMask := 255 }) (running c)).putTimer 0
    { Timer.blank with running := true }).putReaction 0
    { ReactionRec.builtIn with trigger := .timer, action := .note, enabled := true, once := true }

theorem witness_TimerExpiryCountsAndReloads : timed.chip.timerDue 0 = true ∧ timed.chip.ctl.unit.nr = 0 ∧
    noted.chip.timerDue 0 = true ∧ noted.chip.ctl.mode = .run ∧ noted.chip.ctl.unit.nr = 1 ∧
    (noted.chip.reaction 0).enabled = true ∧ (noted.chip.reaction 0).trigger = .timer ∧
    (noted.chip.reaction 0).triggerObj = 0 ∧
    ∀ r < 16, r < noted.chip.ctl.unit.nr → (noted.chip.reaction r).action = .note := by decide

theorem busFree_made (f : Chip → Chip) (h : (f Chip.reset).resetAsserted = false ∧
    (f Chip.reset).path.bus = none ∧ (f Chip.reset).path.queue.length < 16) : (made f).busFree := h

theorem commandFree_made (f : Chip → Chip) (h : ((f Chip.reset).resetAsserted = false ∧
    (f Chip.reset).path.bus = none ∧ (f Chip.reset).path.queue.length < 16) ∧
    (f Chip.reset).ctl.command = none) : (made f).commandFree := h

/-- A full-word write in RUN that no unit rewrites: in plain memory, of word 1 of a receive descriptor, of a receive
descriptor given back, and of a transmit descriptor taken back. -/
def asMade : List (Master × BusAddr × Word × Region) :=
  [(.processor, 0xFFFFF, 7, .plain), (.coaxEngine, 0x10001, 0x4000, .receive .coax 1),
    (.processor, 0x10000, 0x4000, .receive .coax 0), (.coaxEngine, 0x10000, 0, .receive .coax 0),
    (.processor, 0x12000, 0x4000, .transmit 0)]

theorem witness_AccessesReachMemory : (made running).busFree ∧
    (∀ x ∈ asMade, ∃ p, (made running).chip.shown (.masterWrite x.1 x.2.1 3 x.2.2.1) = some p ∧ p.write = true ∧
      (made running).chip.noSlotFor (p.access (made running).chip) = false ∧
      (made running).chip.classify p.addr.toNat = x.2.2.2 ∧
      (∀ e off, x.2.2.2 = .receive e off →
        off % 8 ≠ 0 ∨ masterEngine p.master ≠ some e ∨ bitsOf p.data 14 2 ≠ 1) ∧
      ∀ off, x.2.2.2 = .transmit off → p.master = .processor ∧ bitsOf p.data 14 2 = 1) ∧
    (∃ p, (made running).chip.shown (.masterWrite .processor 0x10000 0 7) = some p ∧ p.write = true ∧
      p.be = 0 ∧ (made running).chip.noSlotFor (p.access (made running).chip) = false) ∧
    (∃ p, (made running).chip.shown (.receiveCompletion .coax 0x10000 0x4000) = some p ∧ p.write = true ∧
      (made running).chip.noSlotFor (p.access (made running).chip) = false) ∧
    ((made running).readFree 0x10001 ∧ (made running).chip.classify 0x10001 = .receive .coax 1 ∧
      masterEngine .processor ≠ some .coax) ∧
    (made running).readFree 0xFFFFF ∧ (made running).chip.classify 0xFFFFF = .plain := by
  refine ⟨busFree_made _ (by decide), fun x h => ⟨_, rfl, rfl, ?_⟩,
    ⟨_, rfl, rfl, rfl, by decide +kernel⟩, ⟨_, rfl, rfl, by decide +kernel⟩,
    ⟨⟨busFree_made _ (by decide), rfl⟩, by decide +kernel, by decide⟩, ⟨busFree_made _ (by decide), rfl⟩,
    by decide +kernel⟩
  have hw : ∀ x ∈ asMade, (made running).chip.noSlotFor (classed (made running).chip x.1 true x.2.1 3 x.2.2.1) =
      false ∧ (made running).chip.classify x.2.1.toNat = x.2.2.2 ∧
      (match x.2.2.2 with
      | .receive e off => decide (off % 8 ≠ 0 ∨ masterEngine x.1 ≠ some e ∨ bitsOf x.2.2.1 14 2 ≠ 1)
      | .transmit _ => decide (x.1 = .processor ∧ bitsOf x.2.2.1 14 2 = 1)
      | _ => true) = true := by
    decide +kernel
  obtain ⟨h1, h2, h3⟩ := hw x h
  exact ⟨h1, h2, fun e off he => by rw [he] at h3; exact of_decide_eq_true h3,
    fun off he => by rw [he] at h3; exact of_decide_eq_true h3⟩

theorem witness_DescriptorReadsSetTheContext : (made running).readFree 0x10001 ∧
    (made running).chip.classify 0x10001 = .receive .coax 1 ∧
    masterEngine (engineMaster .coax) = some .coax ∧
    (made (stretched (classed (running Chip.reset) .coaxEngine false 0x10002 3 0) 0 ∘ running)).chip.path.bus =
      some { access := classed (made (stretched (classed (running Chip.reset) .coaxEngine false 0x10002 3 0) 0 ∘
        running)).chip .coaxEngine false 0x10002 3 0, owed := 0 } ∧
    (made (stretched (classed (running Chip.reset) .coaxEngine false 0x10002 3 0) 0 ∘ running)).chip.path.asking =
      [] :=
  ⟨⟨busFree_made _ (by decide), rfl⟩, by decide +kernel, rfl, rfl, rfl⟩

/-- Four held frames in descriptors 0 to 3, under names 0 to 3. -/
def fourHeld (c : Chip) : Chip := (running c).putHeld .coax
  ((List.range 4).map fun k => { coaxSlot 0 24 [] with id := k, index := k, word0 := 0x10000 + 8 * k })

/-- Those four frames and a completion of descriptor 4 held by WAIT. -/
def fullUp (n : Nat) : State := made fun c =>
  stretched (classed (fourHeld c) .coaxEngine true 0x10020 3 0x4000) n (fourHeld c)

theorem witness_WaitHoldsTheAccess :
    ((made (queued [dep 5 [1, 2]])).chip.resetAsserted = false ∧
      (made (queued [dep 5 [1, 2]])).chip.path.bus = none ∧
      (∃ p, (made (queued [dep 5 [1, 2]])).chip.shown (.masterRead .processor 6 3) = some p ∧
        p.write = false ∧ lastHolding p.addr.toNat (made (queued [dep 5 [1, 2]])).chip.path.queue ≠ 0)) ∧
    (16 ≤ (made (queued (List.replicate 16 (fet 5 3)))).chip.path.queue.length ∧
      (made (queued (List.replicate 16 (fet 5 3)))).chip.path.bus = none) ∧
    (∃ p, (made fourHeld).chip.shown (.receiveCompletion .coax 0x10020 0x4000) = some p ∧
      (p.access (made fourHeld).chip).completion = some (.coax, 4) ∧ (made fourHeld).chip.ctl.mode = .run ∧
      4 ≤ (((made fourHeld).chip.held .coax).filter fun v => !inRun v.word0 8 p.addr.toNat).length) ∧
    ((∃ b, (fullUp 0).chip.path.bus = some b ∧ b.access.completion = some (.coax, 4) ∧
        4 ≤ (((fullUp 0).chip.held .coax).filter fun v => !inRun v.word0 8 b.access.addr).length) ∧
      (fullUp 0).chip.ctl.mode = .run ∧ (fullUp 0).chip.path.queue = [] ∧
      (∀ o, (fullUp 0).chip.offered o = none) ∧
      ∀ e v, (fullUp 0).chip.atEvaluation e = some v → v.ready (fullUp 0).chip.ctl.unit e = false) := by
  refine ⟨⟨rfl, rfl, _, rfl, rfl, by decide⟩, by decide, ⟨_, rfl, by decide +kernel⟩,
    ⟨_, rfl, by decide +kernel⟩, rfl, rfl, fun o => by cases o <;> rfl, fun e v h => ?_⟩
  cases e
  · have he : (fullUp 0).chip.atEvaluation .coax = some { coaxSlot 0 24 [] with word0 := 0x10000 } := rfl
    rw [he] at h
    cases h
    rfl
  · cases h

/-- A completion of descriptor 1 held by WAIT, three other frames held. -/
def oneFree (c : Chip) : Chip :=
  let c := (fourHeld c).putHeld .coax ((((fourHeld c).held .coax).take 1) ++ ((fourHeld c).held .coax).drop 2)
  stretched (classed c .coaxEngine true 0x10008 3 0x4000) 0 (c.withPath { c.path with serial := 4 })

theorem namesOk_nil {s : State} (h : ∀ e, s.chip.held e = []) : s.chip.namesOk := fun e => by simp [h e]

theorem witness_StretchEndsWhenNoCauseHolds : State.reset.chip.path.bus = none ∧
    ((made (stretched (classed Chip.reset .processor false 5 3 0) 1 ∘ queued [dep 5 [1]])).chip.path.bus =
        some ⟨classed Chip.reset .processor false 5 3 0, 1⟩ ∧
      (made (stretched (classed Chip.reset .processor false 5 3 0) 1 ∘ queued [dep 5 [1]])).chip.path.queue ≠
        []) ∧
    (∃ x n, (fullUp 0).chip.path.bus = some { access := x, owed := n } ∧ x.completion = some (.coax, 4) ∧
      (fullUp 0).chip.ctl.mode = .run ∧
      4 ≤ (((fullUp 0).chip.held .coax).filter fun v => !inRun v.word0 8 x.addr).length) ∧
    ((made (stretched (classed Chip.reset .processor false 5 3 0) 1)).chip.path.bus =
        some ⟨classed Chip.reset .processor false 5 3 0, 1⟩ ∧
      (made (stretched (classed Chip.reset .processor false 5 3 0) 1)).chip.path.queue = [] ∧
      (made (stretched (classed Chip.reset .processor false 5 3 0) 1)).chip.path.asking = []) ∧
    ((made (stretched (classed Chip.reset .processor true 0xFFFFF 3 9) 0)).chip.path.bus =
        some ⟨classed Chip.reset .processor true 0xFFFFF 3 9, 0⟩ ∧
      (classed Chip.reset .processor true 0xFFFFF 3 9).region = .plain ∧
      (classed Chip.reset .processor true 0xFFFFF 3 9).be ≠ 0 ∧
      masterEngine (classed Chip.reset .processor true 0xFFFFF 3 9).master = none) ∧
    (∃ x, (made oneFree).chip.path.bus = some { access := x, owed := 0 } ∧ x.completion = some (.coax, 1) ∧
      (((made oneFree).chip.held .coax).filter fun v => !inRun v.word0 8 x.addr).length = 3 ∧
      (made oneFree).chip.slotsAt .coax x.addr = [] ∧ (made oneFree).chip.ctl.mode = .run ∧
      (made oneFree).chip.namesOk ∧ (made oneFree).chip.noReactions ∧ (made oneFree).chip.path.asking = []) ∧
    (∃ p : Pins, (made fun c => (stretched (classed c .processor true 0xFFFFF 3 9) 0 c).withPath
        { (stretched (classed c .processor true 0xFFFFF 3 9) 0 c).path with asking := [p] }).chip.path.asking =
        [p] ∧ p.write = true ∧ (classed Chip.reset .processor true 0xFFFFF 3 9).completion = none) := by
  refine ⟨rfl, ⟨rfl, nofun⟩, ⟨_, _, rfl, by decide +kernel⟩, ⟨rfl, rfl, rfl⟩, ⟨rfl, by decide +kernel⟩,
    ⟨_, rfl, by decide +kernel, by decide +kernel, by decide +kernel, rfl, fun e => ?_, rfl, rfl⟩,
    ⟨⟨.processor, true, 5, 3, 1⟩, rfl, rfl, by decide +kernel⟩⟩
  cases e
  · exact ⟨by decide +kernel, by decide +kernel⟩
  · exact ⟨by decide, nofun⟩

theorem witness_PlainWritesStrikeTheQueue :
    (made (queued [dep 0x20000 [1], fet 5 3])).busFree ∧ (2 : BitVec 2) ≠ 0 ∧ masterEngine .processor = none ∧
    (made (queued [dep 0x20000 [1], fet 5 3])).chip.classify (0x20000#20).toNat = .plain ∧
    (∀ e ∈ (made (queued [dep 0x20000 [1, 2]])).chip.path.queue,
      (strikeEntry (0x20000#20).toNat e).allStruck = false) ∧
    (made (queued [fet 5 3])).busFree ∧
    (∀ e ∈ (made (queued [fet 5 3])).chip.path.queue, e.allStruck = false) ∧
    lastHolding (0x20000#20).toNat (made (queued [fet 5 3])).chip.path.queue = 0 :=
  ⟨busFree_made _ (by decide), by decide, rfl, by decide +kernel, by decide, busFree_made _ (by decide),
    by decide, by decide⟩

theorem witness_WritesNotTakenAreRecorded : State.reset.busFree ∧ Master.coaxEngine ≠ .processor ∧
    (2 : BitVec 2) ≠ 0 ∧ ((28 : BitVec 13).toNat ≤ 28 ∧ 25 ≤ (28 : BitVec 13).toNat) ∧
    4 < (5 : BitVec 13).toNat ∧ (5 : BitVec 13).toNat < 25 := ⟨⟨rfl, rfl, by decide⟩, by decide⟩

/-- A coax context with its buffer at 20000h, naming descriptor 5. -/
def capturing (c : Chip) : Chip := (running c).putCtx .coax
  { Ctx.blank with index := some 5, lo := some 0, hi := some 2 }

theorem witness_EngineWritesAreCaptured : ((made running).chip.ctx .coax).buffer = none ∧
    (made running).chip.classify (0x20003#20).toNat = .plain ∧ (made capturing).busFree ∧ (3 : BitVec 2) ≠ 0 ∧
    ((made capturing).chip.ctx .coax).buffer = some 0x20000 ∧
    (made capturing).chip.classify (0x20003#20).toNat = .plain ∧
    (made capturing).chip.classify (0x20004#20).toNat = .plain ∧
    (made capturing).chip.classify (0x1002B#20).toNat = .receive .coax 43 ∧ 43 % 8 = 3 ∧
    ((made capturing).chip.ctx .coax).index = some (43 / 8) ∧
    (made capturing).chip.slotsAt .coax (0x1002B#20).toNat = [] :=
  ⟨rfl, by decide +kernel, busFree_made _ (by decide), by decide +kernel⟩

theorem witness_CompletionsAreTaken : (made capturing).busFree ∧
    (made capturing).chip.classify (0x10028#20).toNat = .receive .coax 40 ∧ ownerField 0x4000 = 1 ∧
    (made capturing).chip.slotsAt .coax (0x10028#20).toNat = [] ∧ (made capturing).chip.ctl.mode = .run ∧
    ((made capturing).chip.held .coax).length < 4 ∧ (made capturing).chip.namesOk ∧
    (made capturing).chip.noReactions ∧ ((made capturing).chip.ctx .coax).index = some (40 / 8) ∧
    (∀ b, ((made capturing).chip.ctx .coax).buffer = some b →
      ¬ ((0x10028#20).toNat + 1048576 - b) % 1048576 ≤ 3) ∧
    (made (ctl (fun v => { v with mode := .pass }) ∘ capturing)).chip.ctl.mode ≠ .run ∧
    (made (ctl (fun v => { v with mode := .pass }) ∘ capturing)).busFree ∧
    (made (ctl (fun v => { v with mode := .pass }) ∘ capturing)).chip.classify (0x10028#20).toNat =
      .receive .coax 40 :=
  ⟨busFree_made _ (by decide), by decide +kernel, by decide, by decide, rfl, by decide,
    namesOk_nil fun e => by cases e <;> rfl, rfl, rfl, fun b h => by cases h; decide, by decide,
    busFree_made _ (by decide), by decide +kernel⟩

theorem witness_StageOneScoresTheTrunk : (scored .inService 384).busFree ∧
    (scored .inService 384).chip.classify (0x10000#20).toNat = .receive .coax 0 ∧ ownerField 0x5500 = 1 ∧
    (scored .inService 384).chip.slotsAt .coax (0x10000#20).toNat = [] ∧
    (scored .inService 384).chip.ctl.mode = .run ∧ ((scored .inService 384).chip.held .coax).length < 4 ∧
    (scored .inService 384).chip.noReactions ∧ bitsOf 0x5500 12 2 = 1 ∧
    1 < (scored .inService 384).chip.ctl.unit.nt ∧ coaxError 0x5500 = 5 :=
  ⟨busFree_made _ (by decide), by decide +kernel, by decide, by decide, rfl, by decide, rfl, by decide⟩

/-- A frame held in descriptor 0 in a phase. -/
def holding (p : Phase) (c : Chip) : Chip :=
  (running c).putHeld .coax [{ coaxSlot 0 24 [] with phase := p }]

theorem witness_WritesCancelHeldFrames : (made (holding .heldWaiting)).busFree ∧
    (made (holding .heldWaiting)).chip.classify (0x10007#20).toNat = .receive .coax 7 ∧
    (made (holding .heldWaiting)).chip.slotsAt .coax (0x10007#20).toNat = [coaxSlot 0 24 []] ∧
    masterEngine .processor ≠ some .coax ∧ (coaxSlot 0 24 []).phase = .heldWaiting ∧
    (made (holding .releasing)).busFree ∧
    (made (holding .releasing)).chip.slotsAt .coax (0x10007#20).toNat =
      [{ coaxSlot 0 24 [] with phase := .releasing }] :=
  ⟨busFree_made _ (by decide), by decide +kernel, by decide, by decide, rfl, busFree_made _ (by decide),
    by decide⟩

theorem witness_GuardStripsTheMask : (made walk).busFree ∧
    (made walk).chip.classify (0x12048#20).toNat = .transmit 72 ∧ 72 % 8 = 0 ∧ ownerField 0x0200 ≠ 1 ∧
    (made walk).chip.ctl.mode = .run ∧
    (made (ctl (fun v => { v with mode := .pass }) ∘ walk)).chip.ctl.mode ≠ .run ∧
    (made (ctl (fun v => { v with mode := .pass }) ∘ walk)).chip.classify (0x12048#20).toNat = .transmit 72 :=
  ⟨busFree_made _ (by decide), by decide +kernel⟩

/-- Printer 0's ring at 14000h, one descriptor holding entry 0 of job 0. -/
def fed (printed : Word) (c : Chip) : Chip :=
  let c := ctl (fun v => { v with printers := [(0, { PrinterRec.builtIn with enabled := true, base := 0x14000 })] })
    (printing [(0, job0 [0])] [(0, some (entry0 true))] (some 0) c)
  c.withPrt { c.prt with printers := [(0, { Printer.blank with
    state := .ready, claim := some 0, produced := 1
    descs := [(0, { entry := some 0, completed := false, printed := printed })] })] }

theorem witness_PrinterRingWritesAreSeen : (made (fed 0)).busFree ∧ ownerField 0x4000 = 1 ∧
    errorField 0x4000 = 0 ∧
    ((made (fed 0)).chip.classify (0x14008#20).toNat = .printer 0 8 ∧
      ((made (fed 0)).chip.desc 0 1).entry = none) ∧
    (made (fed 0)).chip.classify (0x14004#20).toNat = .printer 0 4 ∧
    (made (fed 0)).chip.classify (0x14000#20).toNat = .printer 0 0 ∧
    ((made (fed 0)).chip.desc 0 0).entry = some 0 ∧
    (made (fed 0)).chip.spoolEntry 0 = some (entry0 true) ∧
    ((made (fed 0)).chip.printer 0).claim = some (entry0 true).job ∧
    ((made (fed 0)).chip.job 0).state = .printing ∧ ((made (fed 0)).chip.job 0).reason = none :=
  ⟨busFree_made _ (by decide), by decide +kernel⟩

theorem witness_FailedEntriesReturnAndStall : (made (fed 127)).busFree ∧
    (made (fed 127)).chip.classify (0x14000#20).toNat = .printer 0 0 ∧ ownerField 0x4F00 = 1 ∧
    errorField 0x4F00 ≠ 0 ∧ errorField 0x4F00 ≠ 4 ∧ ((made (fed 127)).chip.desc 0 0).entry = some 0 ∧
    (made (fed 127)).chip.spoolEntry 0 = some (entry0 true) ∧
    ((made (fed 127)).chip.desc 0 0).printed.toNat < (entry0 true).len ∧
    ((made (fed 127)).chip.printer 0).claim = some (entry0 true).job ∧
    ((made (fed 127)).chip.job 0).state = .printing ∧ ((made (fed 127)).chip.job 0).reason = none ∧
    (made (fed 127)).chip.pairModeOf 0 ≠ .failover ∧ (made (fed 127)).chip.ctl.unit.nr = 0 :=
  ⟨busFree_made _ (by decide), by decide +kernel⟩

/-- The staging copies given, by their keys. -/
def staging (t : Table Word) (c : Chip) : Chip := ctl (fun v => { v with staging := t }) c

theorem witness_StagingWritesReplaceTheCopy : State.reset.busFree ∧
    (1 ≤ (1 : BitVec 13).toNat ∧ (4 : BitVec 13).toNat ≤ 4) ∧
    recordAt State.reset.chip.ctl.unit (46 : BitVec 13).toNat = some (.unit, 14) ∧ 14 + 1 ≠ recordLength .unit ∧
    recordAt State.reset.chip.ctl.unit (47 : BitVec 13).toNat = some (.unit, 15) ∧
    (made (Chip.setMode .loading)).busFree ∧ (made (Chip.setMode .loading)).chip.ctl.mode = .loading ∧
    recordAt State.reset.chip.ctl.unit (29 : BitVec 13).toNat = none ∧
    recordAt State.reset.chip.ctl.unit (8191 : BitVec 13).toNat = none ∧ 28 < (29 : BitVec 13).toNat :=
  ⟨⟨rfl, rfl, by decide⟩, by decide, by decide, by decide, by decide, busFree_made _ (by decide), rfl,
    by decide⟩

/-- Job 3 open for station 254, and the staged U 254. -/
def openFor254 (c : Chip) : Chip :=
  staging [(36, 254)] (c.withStn { c.stn with table :=
    [(254, { Station.blank with kind := .legacy, openJob := some 3 })] })

theorem witness_UnitRecordCommits : ((made running).busFree ∧ (made running).chip.ctl.mode = .run) ∧
    ((made openFor254).busFree ∧ (made openFor254).chip.ctl.mode = .pass ∧
      (((made openFor254).stagedLast .unit 0).staged 36).toNat = 254 ∧
      ((made openFor254).chip.station 254).openJob.isSome = true) ∧
    (State.reset.busFree ∧ State.reset.chip.ctl.mode = .pass ∧ (∀ j, (State.reset.chip.job j).state = .free) ∧
      (∀ n, (State.reset.chip.station n).openJob = none) ∧
      ∀ p, (State.reset.chip.printer p).claim = none ∧ (State.reset.chip.printer p).queue = [] ∧
        ∀ i, (State.reset.chip.desc p i).entry = none) :=
  ⟨⟨busFree_made _ (by decide), rfl⟩, ⟨busFree_made _ (by decide), by decide +kernel⟩,
    ⟨rfl, rfl, by decide⟩, rfl, fun _ => rfl, fun _ => rfl, fun _ => ⟨rfl, rfl, fun _ => rfl⟩⟩

/-- The staged coax receive ring: at E000h with 8 descriptors, and at FFFC8h, past memory's end. -/
def staged56 (lo hi : Word) : State := made (staging [(48, lo), (49, hi)])

theorem witness_RingRecordCommits : ((made running).busFree ∧ (made running).chip.ctl.mode = .run) ∧
    ((staged56 0xFFC8 15).busFree ∧ (staged56 0xFFC8 15).chip.ctl.mode = .pass ∧
      ((staged56 0xFFC8 15).stagedLast (.ring 0) 0).staged 48 = 0xFFC8 ∧ 1048576 < 15 * 65536 + 0xFFC8 + 64) ∧
    ((staged56 0x2000 0).busFree ∧ (staged56 0x2000 0).chip.ctl.mode = .pass ∧
      ((staged56 0x2000 0).stagedLast (.ring 0) 0).staged 48 = 0x2000 ∧
      ((staged56 0x2000 0).stagedLast (.ring 0) 0).staged 50 = 0 ∧ (staged56 0x2000 0).chip.base = 0 ∧
      ¬ (1048576 < 0x2000 + 64 ∨ (0x2000 < 0 + 8192 ∧ 0 < 0x2000 + 64))) :=
  ⟨⟨busFree_made _ (by decide), rfl⟩, ⟨busFree_made _ (by decide), by decide +kernel⟩,
    busFree_made _ (by decide), by decide +kernel⟩

/-- The gate closed, and a reaction in force, in PASS. -/
def gated (c : Chip) : Chip := ctl (fun v => { v with gateClosed := true }) c
def oneReaction (t : Table Word) (c : Chip) : Chip :=
  staging t (ctl (fun v => { v with unit := { v.unit with nr := 1 } }) c)

theorem witness_RecordCommitsTakeTheirFields :
    ((State.reset.busFree ∧ State.reset.chip.ctl.mode ≠ .loading ∧ State.reset.chip.ctl.gateClosed = false ∧
      (State.reset.chip.timer 3).running = false) ∧
    (made gated).busFree ∧ (made gated).chip.ctl.mode ≠ .loading ∧ (made gated).chip.ctl.gateClosed = true) ∧
    (timed.busFree ∧ timed.chip.ctl.mode ≠ .loading ∧ timed.chip.ctl.gateClosed = false ∧
      (timed.chip.timer 0).running = true) ∧
    ((made (oneReaction [(2048, 0x0B00)])).busFree ∧
      (made (oneReaction [(2048, 0x0B00)])).chip.ctl.unit.nr = 1 ∧
      (made (oneReaction [(2048, 0x0B00)])).chip.ctl.unit.np ≤ 8 ∧
      (((made (oneReaction [(2048, 0x0B00)])).stagedLast (.reaction 0) 0).staged 2048).toNat / 256 = 11) ∧
    ∀ b, (made (ctl (fun v => { v with gateClosed := b }) ∘
        oneReaction [(2048, 0x0AFF), (2049, 5), (2050, 0x09FF)])).busFree ∧
      (let c := (made (ctl (fun v => { v with gateClosed := b }) ∘
          oneReaction [(2048, 0x0AFF), (2049, 5), (2050, 0x09FF)])).stagedLast (.reaction 0) 3;
        c.ctl.gateClosed = b ∧ c.staged 2048 = 0x0AFF ∧ c.staged 2049 = 5 ∧ c.staged 2050 = 0x09FF) :=
  ⟨⟨⟨⟨rfl, rfl, by decide⟩, nofun, rfl, rfl⟩, busFree_made _ (by decide), nofun, rfl⟩,
    ⟨busFree_made _ (by decide), nofun, rfl, rfl⟩, ⟨busFree_made _ (by decide), by decide +kernel⟩,
    fun b => ⟨busFree_made _ (by cases b <;> decide), by cases b <;> decide +kernel⟩⟩

theorem witness_LineRecordCommits : (made (staging [(88 + 2 * 7, 6)])).busFree ∧
    (made (staging [(88 + 2 * 7, 6)])).chip.ctl.mode ≠ .loading ∧
    (made (staging [(88 + 2 * 7, 6)])).chip.ctl.gateClosed = false ∧
    bitsOf ((((made (staging [(88 + 2 * 7, 6)])).setPins 0).stagedLast (.line 7) 0x0004).staged 102) 0 4 = 6 ∧
    bitsOf ((((made (staging [(88 + 2 * 7, 6)])).setPins 0).stagedLast (.line 7) 0x0004).staged 103) 1 2 = 2 ∧
    bitsOf ((((made (staging [(88 + 2 * 7, 6)])).setPins 0).stagedLast (.line 7) 0x0006).staged 103) 1 2 = 3 :=
  ⟨busFree_made _ (by decide), nofun, rfl, by decide +kernel⟩

/-- One printer in force, the words of its staged record, and the mode. -/
def onePrinter (t : Table Word) (m : Mode) (k : Option Nat) : State := made fun c =>
  (staging t (ctl (fun v => { v with mode := m, unit := { v.unit with np := 1 } }) c)).putPrinter 0
    { Printer.blank with claim := k }

theorem unclaimed_onePrinter (t : Table Word) (m : Mode) (i : Nat) :
    ((onePrinter t m none).chip.desc 0 i).entry = none := rfl

theorem witness_PrinterRecordCommits :
    ((onePrinter [(1024, 1), (1025, 0x1FC1)] .pass none).busFree ∧
      0 < (onePrinter [(1024, 1), (1025, 0x1FC1)] .pass none).chip.ctl.unit.np ∧
      ((onePrinter [(1024, 1), (1025, 0x1FC1)] .pass none).stagedLast (.printer 0) 0).staged 1025 = 0x1FC1 ∧
      0x1FC1 < (onePrinter [(1024, 1), (1025, 0x1FC1)] .pass none).chip.base + 8192) ∧
    ((onePrinter [(1024, 1), (1025, 0x2000)] .run (some 0)).busFree ∧
      (onePrinter [(1024, 1), (1025, 0x2000)] .run (some 0)).chip.atBoundary 0 = false ∧
      ((onePrinter [(1024, 1), (1025, 0x2000)] .run (some 0)).stagedLast (.printer 0) 0).staged 1028 = 0) ∧
    ((onePrinter [(1024, 1), (1025, 0x2000)] .run none).busFree ∧
      (onePrinter [(1024, 1), (1025, 0x2000)] .run none).chip.atBoundary 0 = true ∧
      ((onePrinter [(1024, 1), (1025, 0x2000)] .run none).chip.printer 0).claim = none ∧
      ((onePrinter [(1024, 1), (1025, 0x2000)] .run none).chip.printer 0).queue = [] ∧
      (∀ i, ((onePrinter [(1024, 1), (1025, 0x2000)] .run none).chip.desc 0 i).entry = none) ∧
      (onePrinter [(1024, 1), (1025, 0x2000)] .run none).chip.pairModeOf 0 ≠ .failover ∧
      (onePrinter [(1024, 1), (1025, 0x2000)] .run none).chip.noReactions) :=
  ⟨⟨busFree_made _ (by decide), by decide +kernel⟩, ⟨busFree_made _ (by decide), by decide +kernel⟩,
    busFree_made _ (by decide), by decide +kernel, rfl, rfl, fun _ => unclaimed_onePrinter _ _ _,
    by decide +kernel, rfl⟩

theorem witness_GateAndMasksAreTakenAtOnce : (made gated).busFree ∧ (1 : Word) ≠ 0 ∧
    (((made gated).setPins 0).struckAt 26).ctl.pendingLines = [] ∧
    (((made gated).setPins 0).struckAt 26).ctl.pendingTimers = [] ∧
    (((made gated).setPins 0).struckAt 26).ctl.pendingPrinters = [] ∧
    (((made gated).setPins 0).struckAt 26).ctl.pendingReactions = [] :=
  ⟨busFree_made _ (by decide), by decide, rfl, rfl, rfl, rfl⟩

/-- One record shown, and a class in the overflow set or none. -/
def unreadOne (o : Octet) (c : Chip) : Chip := c.withEvt { c.evt with
  producer := 1, shown := 1, overflow := o, unread := [.trunk] }

theorem witness_ConsumerIndexConsumesRecords : (made (unreadOne 1)).busFree ∧
    ((made (unreadOne 1)).struckAt 25).evt.unread.length = 1 ∧
    ((made (unreadOne 1)).struckAt 25).evt.overflow ≠ 0 ∧ (made (unreadOne 0)).busFree ∧
    ((made (unreadOne 0)).struckAt 25).evt.overflow = 0 :=
  ⟨busFree_made _ (by decide), by decide +kernel, by decide +kernel, busFree_made _ (by decide),
    by decide +kernel⟩

theorem witness_EventsAreFormedOrLost : maskHas (running Chip.reset).ctl.recordMask .trunk = false ∧
    (maskHas ((unreadOne 0) Chip.reset).ctl.recordMask .trunk = true ∧ 2 ≤ ((unreadOne 0) Chip.reset).ringRoom) ∧
    (Chip.reset.withEvt { EventUnit.reset with producer := 31 }).ringRoom = 0 ∧
    (Chip.reset.withEvt { EventUnit.reset with producer := 30 }).ringRoom = 1 := by decide

/-- A command in progress. -/
def busy (c : Chip) : Chip := c.setCommand (some { tag := 9, phase := .loading 1 0 [] })

theorem witness_CommandsAreRefused : commandWord (.unknownCommand 0x43 1) = some (0x43, 1) ∧
    State.reset.busFree ∧ State.reset.chip.ctl.command = none ∧ (∀ k : CommandCode, k.code ≠ 0x43) ∧
    CommandCode.code .stop = 3 ∧ CommandCode.allowed .stop State.reset.chip.ctl.mode = false ∧
    commandWord (.commandRefused 3 1) = some (3, 1) ∧ (made busy).busFree ∧
    (strikeAt (made busy).chip.base (made busy).chip).ctl.command ≠ none :=
  ⟨rfl, ⟨rfl, rfl, by decide⟩, rfl, fun k => by cases k <;> decide, rfl, rfl, rfl,
    busFree_made _ (by decide), by decide +kernel⟩

/-- The unit record committed; and with it the three rings. -/
def stopped (c : Chip) : Chip := (running c).setMode .pass

theorem witness_LoadAndStartChangeTheMode : (State.reset.commandFree ∧ State.reset.chip.ctl.mode = .pass ∧
      State.reset.chip.ctl.unitCommitted = false) ∧
    ((made (ctl fun v => { v with unitCommitted := true })).commandFree ∧
      (made (ctl fun v => { v with unitCommitted := true })).chip.ctl.unitCommitted = true ∧
      (made (ctl fun v => { v with unitCommitted := true })).chip.ctl.coaxRing.isSome = false) ∧
    ((made stopped).commandFree ∧ (made stopped).chip.ctl.mode = .pass ∧
      (made stopped).chip.ctl.unitCommitted = true ∧
      ((made stopped).chip.ctl.coaxRing.isSome && (made stopped).chip.ctl.pairRing.isSome &&
        (made stopped).chip.ctl.transmitRing.isSome) = true ∧
      ∀ p, ((made stopped).chip.printer p).claim = none ∧ ((made stopped).chip.printer p).queue = []) :=
  ⟨⟨⟨⟨rfl, rfl, by decide⟩, rfl⟩, rfl, rfl⟩, ⟨commandFree_made _ (by decide), rfl, rfl⟩,
    commandFree_made _ (by decide), rfl, rfl, rfl, fun _ => ⟨rfl, rfl⟩⟩

theorem nothingDue_of_blank {c : Chip} (hs : c.stn.secondDue = false) (hd : c.hlth.decayDue = false)
    (ht : c.hlth.trunks = [(0, Trunk.fresh)]) (hj : c.prt.jobs = []) (hk : c.rct.timers = []) :
    c.nothingDue := by
  refine ⟨hs, hd, fun t => ?_, fun j => ?_, fun k => ?_⟩
  · simp only [Chip.trunk, ht, tget]
    split <;> exact ⟨nofun, nofun⟩
  · simp [Chip.job, hj, Job.blank]
  · simp [Chip.timerDue, Chip.timer, hk, Timer.blank]

theorem witness_StopReleasesHeldFrames : (made (holding .heldWaiting)).commandFree ∧
    (made (holding .heldWaiting)).chip.ctl.mode = .run ∧ (made (holding .heldWaiting)).chip.nothingDue ∧
    (made fun c => (holding .heldWaiting c).withPath { c.path with serial := 1 }).chip.namesOk ∧
    (∀ p, (made (holding .heldWaiting)).chip.awaitingPrinter p = none) ∧
    ∃ v ∈ (made (holding .heldWaiting)).chip.held .coax, v.phase = .heldWaiting :=
  ⟨commandFree_made _ (by decide), rfl, nothingDue_of_blank rfl rfl rfl rfl rfl,
    fun e => by cases e <;> exact ⟨by decide, by decide⟩, fun _ => rfl, _, .head _, rfl⟩

theorem witness_RestartClearsLearnedState : (made (Chip.setMode .pass ∘ walk)).commandFree ∧
    (made (Chip.setMode .pass ∘ walk)).chip.ctl.mode = .pass ∧
    ((made (Chip.setMode .pass ∘ walk)).chip.station 200).kind = .unit ∧
    ((made (Chip.setMode .pass ∘ walk)).chip.station 201).kind = .proxy :=
  ⟨commandFree_made _ (by decide), rfl, by decide⟩

theorem witness_StatusDepositsASnapshot : State.reset.commandFree ∧ State.reset.chip.ctl.mode ≠ .loading :=
  ⟨⟨⟨rfl, rfl, by decide⟩, rfl⟩, nofun⟩

theorem witness_InquireDepositsRecords :
    ((made (staging [(1, 7)])).commandFree ∧ (made (staging [(1, 7)])).chip.ctl.mode ≠ .loading ∧
      6 < ((made (staging [(1, 7)])).chip.staged 1).toNat) ∧
    ((made (staging [(1, 1), (2, 255)])).commandFree ∧
      255 ≤ ((made (staging [(1, 1), (2, 255)])).chip.staged 2).toNat) ∧
    ((made (staging [(1, 1), (2, 254), (3, 9)])).commandFree ∧
      ((made (staging [(1, 1), (2, 254), (3, 9)])).chip.staged 2).toNat < 255 ∧
      1 ≤ ((made (staging [(1, 1), (2, 254), (3, 9)])).chip.staged 2).toNat) ∧
    (((made walk).chip.station 12).kind = .legacy ∧ ((made walk).chip.station 12).trunk < 4) ∧
    (∀ n ∈ List.range 255, ¬ (((made walk).chip.station n).kind = .proxy ∧
      ((made walk).chip.station n).slot = 1)) ∧
    (∀ m < 255, ((made walk).chip.station m).kind = .proxy ∧ ((made walk).chip.station m).slot = 0 ↔ m = 201) ∧
    ((cancelling false (some 0)).chip.ctl.unit.np = 1 ∧ ((cancelling false (some 0)).chip.printer 0).claim = some 0 ∧
      ((cancelling false (some 0)).chip.job 31).state = .free ∧
      ((cancelling false (some 0)).chip.job 0).state ≠ .free ∧
      ((cancelling false (some 0)).chip.job 0).printer < 8 ∧
      ((cancelling false (some 0)).chip.job 0).resume ≠ .suspended ∧
      ((cancelling false (some 0)).chip.job 0).owner < 256) :=
  ⟨⟨commandFree_made _ (by decide), nofun, by decide⟩, ⟨commandFree_made _ (by decide), by decide⟩,
    ⟨commandFree_made _ (by decide), by decide⟩, by decide +kernel⟩

/-- No frame held, with the arguments of a station command. -/
def asked (a1 a2 : Word) : State := made (staging [(1, a1), (2, a2)] ∘ walk)

theorem noneHeld_asked (a1 a2 : Word) : ∀ e, ∀ v ∈ (asked a1 a2).chip.held e, v.phase ≠ .heldWaiting := by
  intro e v hv
  cases e
  · have h : (asked a1 a2).chip.held .coax = [] := rfl
    rw [h] at hv
    cases hv
  · have h : (asked a1 a2).chip.held .pair = [] := rfl
    rw [h] at hv
    cases hv

theorem witness_StationCommandsSetAndEmptyEntries :
    ((asked 0x01FE 2).commandFree ∧ (asked 0x01FE 2).chip.ctl.mode ≠ .loading ∧
      (∀ e, ∀ v ∈ (asked 0x01FE 2).chip.held e, v.phase ≠ .heldWaiting)) ∧
    ((0x01FE#16).toNat % 256 = 254 ∧ bitsOf 0x01FE 8 2 = 1 ∧ ((asked 0x01FE 2).chip.station 254).kind = .empty ∧
      ((asked 0x01FE 2).chip.station 254).openJob = none ∧
      ((asked 0x01FE 2).chip.staged 2).toNat < (asked 0x01FE 2).chip.ctl.unit.nt) ∧
    (bitsOf 0x82FE 8 2 = 2 ∧ bitOf 0x82FE 15 = true ∧
      (addrOf ((asked 0x82FE 0x0A00).chip.staged 2) 0 0).toNat / 256 ≠
        (asked 0x82FE 0x0A00).chip.ctl.unit.aliasBase.toNat / 256 ∧
      (∀ m ∈ List.range 255, ((asked 0x82FE 0x0A00).chip.station m).kind = .proxy →
        ((asked 0x82FE 0x0A00).chip.station m).addr ≠ addrOf 0x0A00 0 0 ∧
        ((asked 0x82FE 0x0A00).chip.station m).slot ≠ 1)) ∧
    ((0x01FF#16).toNat % 256 = 255 ∧ bitsOf 0x03FE 8 2 = 3 ∧
      (asked 0x01FE 3).chip.ctl.unit.nt ≤ ((asked 0x01FE 3).chip.staged 2).toNat) ∧
    (((asked 201 0).chip.station 201).kind = .proxy ∧ ((asked 201 0).chip.station 201).openJob = none) ∧
    ((asked 254 0).chip.station 254).kind = .empty ∧ ((asked 200 0).chip.station 200).kind = .unit :=
  ⟨⟨commandFree_made _ (by decide), nofun, noneHeld_asked _ _⟩, by decide +kernel⟩

/-- A station command that waits for the frame of name 0, which is held or is released; the frame refers to
station 12. -/
def waitingCommand (p : Phase) : State := made fun c =>
  ((staging [(1, 12)] (walk c)).putHeld .coax
    [{ coaxSlot 1 24 [37, 12, 1, 0, 0, 16, 0, 189] with phase := p }]).setCommand
    (some { tag := 9, phase := .stationWait .clear 12 0 0 0 [0] })

theorem witness_StationCommandsWaitForHeldFrames :
    ((made fun _ => (waitingCommand .heldWaiting).chip.setCommand none).commandFree ∧
      (waitingCommand .heldWaiting).chip.ctl.mode ≠ .loading ∧
      (waitingCommand .heldWaiting).chip.framesFor .coax 12 = [0]) ∧
    (∃ e, ∃ v ∈ (waitingCommand .heldWaiting).chip.held e, v.id ∈ [0] ∧ v.phase = .heldWaiting) ∧
    (¬ ∃ e, ∃ v ∈ (waitingCommand .releasing).chip.held e, v.id ∈ [0] ∧ v.phase = .heldWaiting) ∧
    ((waitingCommand .releasing).chip.station 12).kind = .legacy ∧
    ((waitingCommand .releasing).chip.station 12).openJob = none := by
  refine ⟨⟨commandFree_made _ (by decide), nofun, by decide⟩, ⟨.coax, _, .head _, by decide⟩, ?_,
    by decide +kernel⟩
  rintro ⟨e, v, hv, -, hp⟩
  cases e
  · rw [show (waitingCommand .releasing).chip.held .coax =
      [{ coaxSlot 1 24 [37, 12, 1, 0, 0, 16, 0, 189] with phase := .releasing }] from rfl] at hv
    rw [List.mem_singleton.mp hv] at hp
    exact nomatch hp
  · exact nomatch hv

theorem witness_StationStandingCommands : (asked 12 0).commandFree ∧ (asked 12 0).chip.ctl.mode = .run ∧
    (asked 12 0).chip.noReactions ∧ ((asked 12 0).chip.station 12).kind = .legacy ∧
    ((asked 12 0).chip.station 12).quarantined = false ∧ ((asked 12 0).chip.station 12).openJob = none ∧
    (asked 254 0).commandFree ∧ ((asked 254 0).chip.station 254).kind = .empty ∧
    ((asked 21 0).chip.putStation 21 { Station.blank with kind := .legacy, quarantined := true }).station 21 =
      { Station.blank with kind := .legacy, quarantined := true } :=
  ⟨commandFree_made _ (by decide), rfl, rfl, by decide +kernel, by decide +kernel, by decide +kernel,
    commandFree_made _ (by decide), by decide +kernel⟩

theorem witness_TrunkCommandsCutAndRelease :
    ((asked 3 0).commandFree ∧ (asked 3 0).chip.ctl.mode = .run ∧ (asked 3 0).chip.noReactions ∧
      (asked 3 0).chip.ctl.unit.nt = 3) ∧
    ((asked 1 0).commandFree ∧ ((asked 1 0).chip.trunk 1).state.connected = true) ∧
    ((asked 2 0).commandFree ∧ ((asked 2 0).chip.trunk 2).state.cut = true ∧
      (asked 2 0).chip.noneToServe 2) :=
  ⟨⟨commandFree_made _ (by decide), rfl, rfl, rfl⟩, ⟨commandFree_made _ (by decide), by decide⟩,
    commandFree_made _ (by decide), by decide, fun _ _ h => nomatch h.1⟩

theorem witness_CancelJobAbandonsTheJob :
    ((made (staging [(1, 32)] ∘ running)).commandFree ∧ (made (staging [(1, 32)] ∘ running)).chip.ctl.mode = .run ∧
      ((made (staging [(1, 32)] ∘ running)).chip.staged 1).toNat = 32) ∧
    ((cancelling false none).commandFree ∧ (cancelling false none).chip.ctl.mode = .run ∧
      ((cancelling false none).chip.job 0).state ≠ .free ∧ ((cancelling false none).chip.job 0).reason = none ∧
      (cancelling false none).chip.noReactions ∧ ((cancelling false none).chip.printer 0).claim ≠ some 0 ∧
      (cancelling false none).chip.ringBusy 0 = false) ∧
    ((cancelling true (some 0)).commandFree ∧ ((cancelling true (some 0)).chip.printer 0).claim = some 0 ∧
      (cancelling true (some 0)).chip.ringBusy 0 = true) :=
  ⟨⟨commandFree_made _ (by decide), rfl, by decide⟩, ⟨commandFree_made _ (by decide), rfl, by decide, by decide,
    rfl, by decide, by decide⟩, commandFree_made _ (by decide), by decide⟩

theorem witness_PrinterHoldAndResume :
    ((asked 8 0).commandFree ∧ (asked 8 0).chip.ctl.mode = .run ∧ (asked 8 0).chip.noReactions ∧
      8 ≤ ((asked 8 0).chip.staged 1).toNat % 256) ∧
    ((made (printing [] [] none)).commandFree ∧ (made (printing [] [] none)).chip.noReactions ∧
      ((made (printing [] [] none)).chip.staged 1).toNat = 0 ∧ (made (printing [] [] none)).chip.ctl.unit.np = 1 ∧
      ((made (printing [] [] none)).chip.printer 0).state ≠ .disabled ∧
      (made (printing [] [] none)).chip.pairModeOf 0 ≠ .failover ∧
      ((made (printing [] [] none)).chip.printer 0).claim = none ∧
      ((made (printing [] [] none)).chip.printer 0).queue = []) :=
  ⟨⟨commandFree_made _ (by decide), rfl, rfl, by decide⟩, commandFree_made _ (by decide), rfl, by decide⟩

/-- Line 7 an OUTPUT. -/
def outputLine : State := made fun c => (staging [(1, 7), (2, 1)] (running c)).putLine 7
  { Line.blank with record := { LineRec.builtIn with fn := .output } }

theorem witness_TimerAndLineCommands : ((asked 4 0).commandFree ∧ (asked 4 0).chip.ctl.mode = .run ∧
      ((asked 4 0).chip.staged 1).toNat % 256 = 4) ∧
    ((asked 3 0).commandFree ∧ ((asked 3 0).chip.timer 3).record.period = 0 ∧ (asked 3 0).chip.noReactions) ∧
    (timed.commandFree ∧ timed.chip.ctl.mode = .run ∧ (timed.chip.staged 1).toNat = 0 ∧
      (timed.chip.timer 0).record.period ≠ 0) ∧
    8 ≤ ((asked 8 0).chip.staged 1).toNat % 256 ∧ ((asked 7 0).chip.line 7).record.fn ≠ .output ∧
    (outputLine.commandFree ∧ outputLine.chip.ctl.mode = .run ∧ (outputLine.chip.staged 1).toNat % 256 = 7 ∧
      (outputLine.chip.line 7).record.fn = .output) :=
  ⟨⟨commandFree_made _ (by decide), rfl, by decide⟩, ⟨commandFree_made _ (by decide), rfl, rfl⟩,
    ⟨commandFree_made _ (by decide), rfl, by decide⟩, by decide, by decide,
    commandFree_made _ (by decide), rfl, by decide⟩

/-- The oldest entry a fetch for the held frame, and a fetch of LOAD's. -/
def fetching (p : Purpose) (n : Nat) : State := made fun c => queued [⟨7, .frame, p, .fetch 0x20000 n⟩]
  ((holding .heldWaiting c).withPath { c.path with serial := 1 })
def loading (off n left : Nat) : State := made (queued [⟨7, .control, .loadFetch off, .fetch off n⟩] ∘
  Chip.setMode .loading ∘ Chip.setCommand (some { tag := 9, phase := .loading left 0 [] }))

theorem namesOk_fetching (p : Purpose) (n : Nat) : (fetching p n).chip.namesOk := by
  intro e
  cases e
  · have h : (fetching p n).chip.held .coax = [coaxSlot 0 24 []] := rfl
    simp [h, coaxSlot, show (fetching p n).chip.path.serial = 1 from rfl]
  · have h : (fetching p n).chip.held .pair = [] := rfl
    simp [h]

theorem witness_PrivateCyclePerformsTheOldest : State.reset.chip.path.queue = [] ∧
    ((made (queued [dep 5 [1, 2]])).chip.path.queue = [dep 5 [1, 2]] ∧ (unstruck [1, 2]).length ≤ 16) ∧
    (∀ p n, (fetching p n).chip.path.queue = [⟨7, .frame, p, .fetch 0x20000 n⟩] ∧
      (fetching p n).chip.namesOk ∧ coaxSlot 0 24 [] ∈ (fetching p n).chip.held .coax) ∧
    (coaxSlot 0 24 []).id = 0 ∧
    (∀ off n left, (loading off n left).chip.path.queue = [⟨7, .control, .loadFetch off, .fetch off n⟩] ∧
      (loading off n left).chip.ctl.command = some { tag := 9, phase := .loading left 0 [] } ∧
      (loading off n left).chip.ctl.pendingCommits = [] ∧ (loading off n left).chip.ctl.mode = .loading ∧
      (loading off n left).chip.ctl.unit.np ≤ 8 ∧ (loading off n left).chip.ctl.unit.nr ≤ 16) :=
  ⟨rfl, ⟨rfl, by decide⟩, fun _ _ => ⟨rfl, namesOk_fetching _ _, .head _⟩, rfl,
    fun _ _ _ => ⟨rfl, rfl, rfl, rfl, Nat.zero_le 8, Nat.zero_le 16⟩⟩

/-- The print unit waits with a deposit, the frame unit with none. -/
def waitingPrint : State := made fun c => c.withPath
  { c.path with waitPrint := [⟨7, .print, .printerDescriptor 0 0, .deposit 0x14000 [(0, false)]⟩] }

theorem witness_QueuePlacesGoInTurn : (16 ≤ (made (queued (List.replicate 16 (fet 5 3)))).chip.path.queue.length ∧
      ∀ o, State.reset.chip.offered o = none) ∧
    waitingPrint.chip.path.queue.length < 16 ∧
    waitingPrint.chip.path.turn.fromTurn = [.frame] ++ .print :: [.control, .event] ∧
    (∀ x ∈ [Owner.frame], waitingPrint.chip.offered x = none) ∧
    waitingPrint.chip.offered .print = some ⟨7, .print, .printerDescriptor 0 0, .deposit 0x14000 [(0, false)]⟩ :=
  ⟨⟨by decide +kernel, fun o => by cases o <;> rfl⟩, by decide +kernel⟩

/-- A frame at evaluation, in the walk-through's state changed. -/
def atTwo (e : Engine) (v : Slot) (f : Chip → Chip) : State := made fun c => (f (walk c)).putHeld e [v]

/-- Such a frame is at evaluation with all it needs. -/
theorem evaluating_atTwo {e : Engine} {v : Slot} {f : Chip → Chip} (hv : v.id = 0)
    (hh : ∀ r, r ≠ e → (f (walk Chip.reset)).held r = []) (h : 0 < (f (walk Chip.reset)).path.serial ∧
      (f (walk Chip.reset)).ctl.mode = .run ∧ v.phase = .heldWaiting ∧
      v.ready (f (walk Chip.reset)).ctl.unit e = true ∧ (f (walk Chip.reset)).ctl.unit.nr = 0) :
    (atTwo e v f).chip.evaluating e v := by
  obtain ⟨hs, hm, hp, hr, hn⟩ := h
  have he : (atTwo e v f).chip.held e = [v] := by cases e <;> rfl
  have hw : (atTwo e v f).chip.path.serial = (f (walk Chip.reset)).path.serial := by cases e <;> rfl
  refine ⟨by cases e <;> exact hm, by simp [Chip.atEvaluation, he, hp], by cases e <;> exact hr, fun r => ?_,
    by cases e <;> exact hn⟩
  by_cases hre : r = e
  · subst hre
    rw [he, hw]
    exact ⟨by simp, fun w hwm => by rw [List.mem_singleton.mp hwm, hv]; exact hs⟩
  · have hx : (atTwo e v f).chip.held r = (f (walk Chip.reset)).held r := by
      cases e <;> cases r <;> first | rfl | exact absurd rfl hre
    rw [hx, hh r hre]
    exact ⟨List.nodup_nil, nofun⟩

/-- Frame 1 of section 6.7, its header captured; the same with another length and check octet. -/
def frame1 : Slot := coaxSlot 1 24 [37, 12, 1, 0, 0, 16, 0, 189]
def frame1Of (len : Word) (check : Octet) : Slot := coaxSlot 1 len [37, 12, 1, 0, 0, 16, 0, check]

/-- Entry 12 as given. -/
def with12 (e : Station) (c : Chip) : Chip := c.putStation 12 e
def leg12 : Station := { Station.blank with kind := .legacy, trunk := 1 }

theorem up_one {c : Chip} {k : Nat} (hk : k = 1) (hn : c.ctl.unit.nt = 3)
    (ht : (c.trunk 1).state.connected = true) : c.up k := by
  subst hk
  exact ⟨by omega, ht⟩

theorem coaxFrame_of (len : Word) (check : Octet) (e : Station) :
    (atTwo .coax (frame1Of len check) (with12 e)).chip.coaxFrame (frame1Of len check) :=
  ⟨evaluating_atTwo rfl (fun r h => by cases r; exacts [absurd rfl h, rfl])
    ⟨Nat.one_pos, rfl, rfl, rfl, rfl⟩, rfl, up_one (show bitsOf (wordNat 4096) 12 2 = 1 by decide) rfl rfl⟩

theorem heardFrame_of (e : Station) : (atTwo .coax frame1 (with12 e)).chip.heardFrame frame1 :=
  ⟨coaxFrame_of 24 189 e, by unfold Slot.sumGood; decide, by decide⟩

theorem goodFrame_frame1 : (atTwo .coax frame1 (with12 leg12)).chip.goodFrame frame1 :=
  ⟨heardFrame_of _, by decide +kernel⟩

/-- A pair frame like frame 3 of section 6.7, to station 37, with the source address's octets. -/
def pairFrom (x : List Octet) : Slot :=
  { id := 0, index := 0, word0 := 0x11000, saved := 0, lo := some 0, hi := some 3, len := some 38
    octets := heads ([0x06, 0x10, 0x20, 0x30, 0x40, 0x25] ++ x ++ [0x7F, 0x31, 37, 9, 1, 0, 0, 16, 0, 192])
    payload := none, phase := .heldWaiting, fixed := none, fetching := false }

/-- The proxy range's ends, and entry 201 as given. -/
def lending (hi : Nat) (e : Station) (c : Chip) : Chip :=
  (ctl (fun v => { v with unit := { v.unit with pLo := 201, pHi := hi } }) c).putStation 201 e
def proxy201 : Station := { Station.blank with kind := .proxy, addr := 0x0A001100000A#48 }

/-- The sources: the proxy's own address, another, one in the alias block, all ones. -/
def sourceA : List Octet := [0x0A, 0, 0x11, 0, 0, 0x0A]
def sourceB : List Octet := [0x0A, 0, 0x11, 0, 0, 0x0B]
def sourceAlias : List Octet := [0x06, 0x10, 0x20, 0x30, 0x40, 0x09]
def sourceOnes : List Octet := [0xFF, 0xFF, 0xFF, 0xFF, 0xFF, 0xFF]

theorem linkFrame_of (x : List Octet) (hi : Nat) (e : Station)
    (h : x = sourceA ∨ x = sourceB ∨ x = sourceAlias ∨ x = sourceOnes) :
    (atTwo .pair (pairFrom x) (lending hi e)).chip.linkFrame (pairFrom x) 37 := by
  rcases h with rfl | rfl | rfl | rfl <;>
    exact ⟨⟨evaluating_atTwo rfl (fun r hr => by cases r; exacts [rfl, absurd rfl hr])
      ⟨Nat.one_pos, rfl, rfl, rfl, rfl⟩, rfl, rfl, show (0x7F31#16) ≠ 0 by decide,
      show 0x7F * 256 + 0x31 = 0x7F31 by decide⟩, by decide, by decide, show 37 ≠ 200 by decide,
      show (0x061020304000#48).toNat % 256 = 0 by decide, show _ = (0x061020304000#48).toNat + 37 by decide +kernel,
      by unfold Slot.sumGood; decide, by decide⟩

/-- A pair frame from address A: its destination address, word 6's low octet, embedded destination, check octet,
length and error kind. -/
def pairTo (m : List Octet) (ty dst check : Octet) (len err : Nat) : Slot :=
  { pairFrom sourceA with
    saved := wordNat (256 * err)
    len := some (wordNat len)
    octets := heads (m ++ sourceA ++ [0x7F, ty, dst, 9, 1, 0, 0, 16, 0, check]) }
def aliasOf (k : Octet) : List Octet := [0x06, 0x10, 0x20, 0x30, 0x40, k]

/-- Such a frame is at evaluation. -/
theorem evaluating_pair {v : Slot} (e : Station) (h : v.id = 0 ∧ v.phase = .heldWaiting ∧
    v.ready { unit67 with pLo := 201, pHi := 201 } .pair = true) :
    (atTwo .pair v (lending 201 e)).chip.evaluating .pair v :=
  evaluating_atTwo h.1 (fun r hr => by cases r; exacts [rfl, absurd rfl hr]) ⟨Nat.one_pos, rfl, h.2.1, h.2.2, rfl⟩

/-- The proxy map does not look at the held frames. -/
theorem findAddr_lent (v : Slot) (e : Station) (x : NewAddr) :
    (atTwo .pair v (lending 201 e)).chip.findAddr x = (lending 201 e (walk Chip.reset)).findAddr x := rfl

/-- Link frames whose destination address gives no destination, with bad link headers, and sound ones to
station 37, to the unit by its alias and by all ones, and to all. -/
def lostLinks : List Slot := [pairTo (aliasOf 255) 0x31 37 192 38 0, pairTo sourceB 0x31 37 192 38 0,
  pairTo sourceOnes 0x31 255 230 38 0]
def badLinks : List Slot := [pairTo (aliasOf 37) 0x31 37 193 38 0, pairTo (aliasOf 37) 0x31 37 192 37 0]
def soundLinks : List (Slot × Nat × Bool) := [(pairTo (aliasOf 37) 0x31 37 192 38 0, 37, false),
  (pairTo (aliasOf 0) 0x31 37 192 38 0, 200, true), (pairTo sourceOnes 0x31 200 29 38 0, 200, true),
  (pairTo sourceOnes 0x31 0 229 38 0, 0, false)]

/-- Trunk 1 cut. -/
def cutOne (c : Chip) : Chip := c.putTrunk 1 { Trunk.fresh with state := .isolated }

theorem witness_StageTwoReleasesFrames :
    (State.reset.chip.ctl.mode ≠ .run ∧ State.reset.chip.atEvaluation .coax = none) ∧
    ((∃ v : Slot, v.fixed = some { code := 14, detail := 1 } ∧ (atTwo .coax v id).chip.evaluating .coax v) ∧
      ((atTwo .coax frame1 cutOne).chip.evaluating .coax frame1 ∧
        ((atTwo .coax frame1 cutOne).chip.trunk frame1.trunk).state.cut = true) ∧
      ((atTwo .coax (frame1Of 24 188) (with12 leg12)).chip.coaxFrame (frame1Of 24 188) ∧
        ¬ (frame1Of 24 188).sumGood 0)) ∧
    (∀ e, (atTwo .coax frame1 (with12 e)).chip.heardFrame frame1 ∧
      (atTwo .coax frame1 (with12 e)).chip.station (frame1.num 1) = e) ∧
    ((atTwo .coax frame1 (with12 leg12)).chip.goodFrame frame1 ∧
      ((atTwo .coax frame1 (with12 leg12)).chip.station 12).openJob = none ∧ frame1.num 0 = 37 ∧
      37 ≠ (atTwo .coax frame1 (with12 leg12)).chip.ctl.unit.u ∧
      ((atTwo .coax frame1 (with12 leg12)).chip.station 37).kind = .legacy ∧
      ((atTwo .coax frame1 (with12 leg12)).chip.station 37).trunk = 0 ∧
      (atTwo .coax frame1 (with12 leg12)).chip.up 0 ∧ frame1.trunk = 1) ∧
    (∀ v ∈ [pairTo (aliasOf 37) 0x31 37 192 38 1, pairTo (aliasOf 37) 0x31 37 192 38 3,
        pairTo (aliasOf 37) 0x32 37 192 38 0],
      (atTwo .pair v (lending 201 proxy201)).chip.evaluating .pair v ∧ v.fixed = none ∧
        (pairError v.saved ≠ 0 ∨ v.num 12 * 256 + v.num 13 ≠ 0x7F31)) ∧
    (∀ v ∈ lostLinks ++ badLinks ++ soundLinks.map (·.1), ∀ e,
      (atTwo .pair v (lending 201 e)).chip.linkArrived v ∧ (atTwo .pair v (lending 201 e)).chip.station 201 = e) ∧
    (∀ v ∈ lostLinks, v.destinedNowhere unit67) ∧
    (∀ v ∈ badLinks, v.destined unit67 37 false ∧ (¬ v.sumGood 14 ∨ v.length < 22 + 16)) ∧
    (∀ x ∈ soundLinks, x.1.destined unit67 x.2.1 x.2.2 ∧ x.1.sumGood 14 ∧ x.1.length = 22 + 16 ∧
      x.1.num 16 = 1 ∧ unit67.inAliasBlock x.1.sourceAddr = false ∧
      (atTwo .pair x.1 (lending 201 proxy201)).chip.findAddr x.1.sourceAddr = some 201 ∧
      (atTwo .pair x.1 (lending 201 { proxy201 with quarantined := true })).chip.findAddr x.1.sourceAddr =
        some 201) := by
  refine ⟨⟨nofun, rfl⟩, ⟨⟨{ frame1 with fixed := some { code := 14, detail := 1 } }, rfl,
    evaluating_atTwo rfl (fun r h => by cases r; exacts [absurd rfl h, rfl])
      ⟨Nat.one_pos, rfl, rfl, rfl, rfl⟩⟩, ⟨evaluating_atTwo rfl (fun r h => by cases r; exacts [absurd rfl h, rfl])
      ⟨Nat.one_pos, rfl, rfl, rfl, rfl⟩, by decide +kernel⟩, coaxFrame_of _ _ _, by unfold Slot.sumGood; decide⟩,
    fun e => ⟨heardFrame_of e, ?_⟩, ⟨goodFrame_frame1, by decide +kernel⟩, fun v h => ?_, fun v h e => ⟨?_, ?_⟩,
    ?_, ?_, ?_⟩
  · show tget Station.blank (tset Station.blank (walk Chip.reset).stn.table 12 e) 12 = e
    simp
  · have hv : ∀ v ∈ [pairTo (aliasOf 37) 0x31 37 192 38 1, pairTo (aliasOf 37) 0x31 37 192 38 3,
        pairTo (aliasOf 37) 0x32 37 192 38 0], (v.id = 0 ∧ v.phase = .heldWaiting ∧
        v.ready { unit67 with pLo := 201, pHi := 201 } .pair = true) ∧ v.fixed = none ∧
        (pairError v.saved ≠ 0 ∨ v.num 12 * 256 + v.num 13 ≠ 0x7F31) := by decide +kernel
    exact ⟨evaluating_pair _ (hv v h).1, (hv v h).2⟩
  · have hv : ∀ v ∈ lostLinks ++ badLinks ++ soundLinks.map (·.1), (v.id = 0 ∧ v.phase = .heldWaiting ∧
        v.ready { unit67 with pLo := 201, pHi := 201 } .pair = true) ∧ v.fixed = none ∧ pairError v.saved = 0 ∧
        (0x7F31#16) ≠ 0 ∧ v.num 12 * 256 + v.num 13 = (0x7F31#16).toNat := by decide +kernel
    exact ⟨evaluating_pair _ (hv v h).1, (hv v h).2⟩
  · show tget Station.blank (tset Station.blank (walk Chip.reset).stn.table 201 e) 201 = e
    simp
  · unfold Slot.destinedNowhere Slot.toAlias
    decide +kernel
  · unfold Slot.destined Slot.toAlias Slot.sumGood
    decide +kernel
  · simp only [findAddr_lent]
    unfold Slot.destined Slot.toAlias Slot.sumGood
    decide +kernel

/-- Entry 12 in each case of a hearing on trunk 1. -/
theorem witness_HearingsFollowTheTable :
    (∀ e, (atTwo .coax frame1 (with12 e)).chip.heardFrame frame1 ∧
      (atTwo .coax frame1 (with12 e)).chip.station 12 = e) ∧ coaxError frame1.saved ≠ 3 ∧
    frame1.num 0 ≠ unit67.u ∧ frame1.num 1 = 12 ∧ frame1.trunk = 1 ∧
    (proxy201.kind = .proxy ∧ proxy201.pinned = false ∧ proxy201.openJob = none) ∧
    leg12.kind = .legacy ∧ leg12.openJob = none ∧ leg12.trunk = 1 ∧
    ¬ (atTwo .coax frame1 (with12 { leg12 with trunk := 2 })).chip.up 2 ∧
    ({ leg12 with trunk := 0, pinned := true } : Station).pinned = true ∧
    min 255 (leg12.score + HealthRec.builtIn.stationConflict) < HealthRec.builtIn.stationLimit := by
  refine ⟨fun e => ⟨heardFrame_of e, ?_⟩, by decide +kernel⟩
  show tget Station.blank (tset Station.blank (walk Chip.reset).stn.table 12 e) 12 = e
  simp

theorem witness_LookupsLendNumbers :
    (unit67.inAliasBlock (pairFrom sourceAlias).sourceAddr = true ∧
      (atTwo .pair (pairFrom sourceAlias) (lending 201 proxy201)).chip.linkFrame (pairFrom sourceAlias) 37) ∧
    ((pairFrom sourceOnes).sourceAddr = BitVec.allOnes 48 ∧
      (atTwo .pair (pairFrom sourceOnes) (lending 201 proxy201)).chip.linkFrame (pairFrom sourceOnes) 37) ∧
    (∀ hi e, (atTwo .pair (pairFrom sourceB) (lending hi e)).chip.linkFrame (pairFrom sourceB) 37) ∧
    unit67.inAliasBlock (pairFrom sourceB).sourceAddr = false ∧
    (pairFrom sourceB).sourceAddr ≠ BitVec.allOnes 48 ∧
    (∀ age m, ((atTwo .pair (pairFrom sourceB) (lending 202 { proxy201 with age := age })).chip.station m).kind =
      .proxy → m = 201) ∧
    proxy201.addr ≠ (pairFrom sourceB).sourceAddr ∧ proxy201.slot = 0 ∧
    (atTwo .pair (pairFrom sourceB) (lending 202 proxy201)).chip.ctl.unit.proxyRange = [201] ++ 202 :: [] ∧
    ((atTwo .pair (pairFrom sourceB) (lending 202 proxy201)).chip.station 202).kind = .empty ∧
    (atTwo .pair (pairFrom sourceB) (lending 201 proxy201)).chip.ctl.unit.proxyRange = [201] ∧
    (atTwo .pair (pairFrom sourceB) (lending 201 proxy201)).chip.stn.limits.reclaimMin = 60 ∧
    ((atTwo .pair (pairFrom sourceB) (lending 201 { proxy201 with age := 60 })).chip.station 201) =
      { proxy201 with age := 60 } ∧ proxy201.age = 0 := by
  refine ⟨⟨by decide +kernel, linkFrame_of _ _ _ (.inr (.inr (.inl rfl)))⟩,
    ⟨by decide +kernel, linkFrame_of _ _ _ (.inr (.inr (.inr rfl)))⟩,
    fun _ _ => linkFrame_of _ _ _ (.inr (.inl rfl)), by decide +kernel, by decide +kernel, fun age m h => ?_,
    by decide +kernel⟩
  by_cases hn : m = 201
  · exact hn
  · have hs : (atTwo .pair (pairFrom sourceB) (lending 202 { proxy201 with age := age })).chip.station m =
        tget Station.blank (tset Station.blank (walk Chip.reset).stn.table 201 { proxy201 with age := age }) m :=
      rfl
    rw [hs, tget_tset, if_neg hn] at h
    rcases tget_mem Station.blank (walk Chip.reset).stn.table m with hb | hm
    · rw [hb] at h
      cases h
    · have hl : ∀ x ∈ (walk Chip.reset).stn.table, x.2.kind = .proxy → x.1 = 201 := by decide
      exact hl _ hm h

/-- A frame with error LONG. -/
def longFrame : Slot := { frame1 with saved := 0x1300 }

theorem witness_StageTwoChargesTrunksAndStations :
    ((atTwo .coax (frame1Of 24 188) (with12 leg12)).chip.coaxFrame (frame1Of 24 188) ∧
      ¬ (frame1Of 24 188).sumGood 0) ∧
    ((atTwo .coax (frame1Of 26 189) (with12 leg12)).chip.coaxFrame (frame1Of 26 189) ∧
      (frame1Of 26 189).sumGood 0 ∧ (frame1Of 26 189).length ≠ 8 + (0 * 256 + 16) ∧ leg12.openJob = none) ∧
    ((atTwo .coax frame1 (with12 leg12)).chip.coaxFrame frame1 ∧ frame1.sumGood 0 ∧
      frame1.length = 8 + (frame1.num 4 * 256 + frame1.num 5) ∧ frame1.num 1 = 12 ∧ frame1.num 0 ≠ 255 ∧
      frame1.num 0 ≠ unit67.u ∧ leg12.kind = .legacy ∧ leg12.trunk = frame1.trunk) ∧
    coaxError longFrame.saved = 3 ∧
    (atTwo .coax longFrame (with12 leg12)).chip.evaluating .coax longFrame := by
  refine ⟨⟨coaxFrame_of _ _ _, by unfold Slot.sumGood; decide⟩, ⟨coaxFrame_of _ _ _, by unfold Slot.sumGood; decide,
    by decide, rfl⟩, ⟨coaxFrame_of 24 189 _, by unfold Slot.sumGood; decide, by decide +kernel⟩, by decide,
    evaluating_atTwo rfl (fun r h => by cases r; exacts [absurd rfl h, rfl])
      ⟨Nat.one_pos, rfl, rfl, rfl, rfl⟩⟩

/-! #### Print frames -/

/-- A print frame of station 12 to the unit: its kind, its length, its check octet; printer 0 wished for. -/
def printSlot (kind : Octet) (len : Nat) (check : Octet) : Slot :=
  { coaxSlot 1 (wordNat (8 + len)) [200, 12, kind, 1, 0, BitVec.ofNat 8 len, 0, check] with payload := some 0 }

/-- The print unit as given, printer 0 in force, and the open job of station 12. -/
def printTwo (js : Table Job) (sp : Table (Option SpoolEntry)) (v : Printer) (oj : Option Nat) (c : Chip) : Chip :=
  ((ctl (fun w => { w with unit := { w.unit with np := 1 } }) c).withPrt
    { c.prt with jobs := js, spool := sp, printers := [(0, v)] }).putStation 12
    { leg12 with openJob := oj }
def ready0 : Printer := { Printer.blank with state := .ready }
def stalled0 (k : Option Nat) : Printer := { Printer.blank with state := .stalled, claim := k }

/-- The frame's header is whole and sound, and its length fits. -/
abbrev printSound (w : Slot) (kind : Octet) : Prop :=
  w.ready { unit67 with np := 1 } .coax = true ∧ w.num 2 = kind.toNat ∧
    w.length = 8 + (w.num 4 * 256 + w.num 5) ∧
    ((List.range 8).map fun k => if k = 6 then 0 else w.num k).sum % 256 = 255

theorem printFrame_of (js : Table Job) (sp : Table (Option SpoolEntry)) (v : Printer) (oj : Option Nat)
    {kind : Octet} {len : Nat} {check : Octet} (h : printSound (printSlot kind len check) kind) :
    (atTwo .coax (printSlot kind len check) (printTwo js sp v oj)).chip.printFrame (printSlot kind len check)
      kind.toNat := by
  obtain ⟨hr, hk, hl, hg⟩ := h
  have ht : (printSlot kind len check).trunk = 1 := show bitsOf (wordNat 4096) 12 2 = 1 by decide
  have hs : (atTwo .coax (printSlot kind len check) (printTwo js sp v oj)).chip.station 12 =
      { leg12 with openJob := oj } := by
    show tget Station.blank (tset Station.blank (walk Chip.reset).stn.table 12 { leg12 with openJob := oj }) 12 = _
    simp
  have hsum : (printSlot kind len check).sumGood 0 := by
    simpa [List.range_succ, Slot.sumGood, Nat.add_assoc] using hg
  have he : (atTwo .coax (printSlot kind len check) (printTwo js sp v oj)).chip.evaluating .coax
      (printSlot kind len check) :=
    evaluating_atTwo rfl (fun r hc => by cases r; exacts [absurd rfl hc, rfl]) ⟨Nat.one_pos, rfl, rfl, hr, rfl⟩
  have hh : (atTwo .coax (printSlot kind len check) (printTwo js sp v oj)).chip.heardFrame
      (printSlot kind len check) :=
    ⟨⟨he, rfl, up_one ht rfl rfl⟩, hsum, hl, show 200 ≠ 255 by decide, show 12 ≠ 0 by decide,
      show 12 ≠ 255 by decide⟩
  refine ⟨⟨hh, show coaxError (wordNat 4096) ≠ 3 by decide, ?_⟩, show 200 ≠ 0 by decide, rfl, hk⟩
  rw [show (printSlot kind len check).num 1 = 12 from rfl, hs, ht]
  exact ⟨rfl, rfl, rfl⟩

/-- Its job 0, and its entry 12. -/
theorem printTwo_reads (js : Table Job) (sp : Table (Option SpoolEntry)) (v : Printer) (oj : Option Nat)
    (w : Slot) : (atTwo .coax w (printTwo js sp v oj)).chip.prt = { PrintUnit.reset with
        jobs := js, spool := sp, printers := [(0, v)] } ∧
    ((atTwo .coax w (printTwo js sp v oj)).chip.station 12).openJob = oj := by
  refine ⟨rfl, ?_⟩
  show (tget Station.blank (tset Station.blank (walk Chip.reset).stn.table 12 { leg12 with openJob := oj }) 12).openJob
    = _
  simp

theorem noneSuspended_of {js : Table Job} (h : ∀ e ∈ js, e.2.state ≠ .suspended) (sp : Table (Option SpoolEntry))
    (v : Printer) (oj : Option Nat) (w : Slot) : (atTwo .coax w (printTwo js sp v oj)).chip.noneSuspended :=
  tget_all (P := fun j : Job => j.state ≠ .suspended) nofun h

theorem witness_PrintDataIsSpooled :
    let s := atTwo .coax (printSlot 17 128 153) (printTwo [(0, job0 [])] [] (stalled0 (some 0)) (some 0))
    s.chip.printFrame (printSlot 17 128 153) 17 ∧ s.chip.noneSuspended ∧
    (s.chip.station 12).openJob = some 0 ∧ (printSlot 17 128 153).octet 3 = (s.chip.job 0).seq + 1 ∧
    (s.chip.printer 0).state ≠ .ready ∧ (s.chip.job 0).state ≠ .waiting ∧ s.chip.spoolEntry 0 = none :=
  ⟨printFrame_of _ _ _ _ (by decide +kernel), noneSuspended_of (by decide) _ _ _ _,
    (printTwo_reads _ _ _ _ _).2, by decide +kernel⟩

/-- Thirty-two jobs, none FREE. -/
def allJobs : Table Job := (List.range 32).map fun k => (k, job0 [])

theorem witness_PrintOpenAssignsAPrinter :
    (∀ len check, (len, check) = (128, 154) ∨ (len, check) = (0, 26) → ∀ js v oj,
      (∀ e ∈ js, e.2.state ≠ .suspended) →
      let s := atTwo .coax (printSlot 16 len check) (printTwo js [] v oj)
      s.chip.printFrame (printSlot 16 len check) 16 ∧ s.chip.noneSuspended ∧
      (s.chip.station 12).openJob = oj ∧ s.chip.job = tget Job.blank js ∧ s.chip.printer 0 = v ∧
      s.chip.ctl.unit.np = 1 ∧ s.chip.pairModeOf 0 = .independent) ∧
    (job0 []).accepted = 0 ∧ (printSlot 16 0 26).num 4 * 256 + (printSlot 16 0 26).num 5 = 0 ∧
    (∀ e ∈ allJobs, e.2.state ≠ .suspended) ∧ (∀ j < 32, (tget Job.blank allJobs j).state ≠ .free) ∧
    (tget Job.blank [(0, job0 [])] 1).state = .free ∧ (tget Job.blank [(0, job0 [])] 0).state ≠ .free ∧
    ready0.state = .ready ∧ ready0.claim = none ∧ ready0.queue = [] ∧ (stalled0 none).state = .stalled := by
  refine ⟨fun len check h js v oj hj => ⟨?_, noneSuspended_of hj _ _ _ _, (printTwo_reads _ _ _ _ _).2, rfl, rfl,
    rfl, rfl⟩, by decide +kernel⟩
  rcases h with h | h <;> cases h <;> exact printFrame_of _ _ _ _ (by decide +kernel)

theorem witness_PrintCloseAndAbortEndJobs :
    (∀ kind check, (kind, check) ∈ [(17, 25), (18, 24), (19, 23)] → ∀ js sp v oj,
      (∀ e ∈ js, e.2.state ≠ .suspended) →
      let s := atTwo .coax (printSlot kind 0 check) (printTwo js sp v oj)
      s.chip.printFrame (printSlot kind 0 check) kind.toNat ∧ s.chip.noneSuspended ∧
      (printSlot kind 0 check).num 1 = 12 ∧ (s.chip.station 12).openJob = oj ∧
      s.chip.job = tget Job.blank js ∧ s.chip.printer 0 = v ∧ s.chip.spoolEntry = tget none sp ∧
      s.chip.awaitingPrinter 0 = none) ∧
    (job0 []).owner = 12 ∧ (job0 []).reason = none ∧ (job0 []).printer = 0 ∧ (job0 []).state = .printing ∧
    (stalled0 (some 0)).claim = some 0 ∧ (stalled0 (some 0)).queue = [] ∧ (stalled0 none).claim ≠ some 0 ∧
    (∀ ring, (entry0 ring).job = 0) ∧
    (∀ ring, let s := atTwo .coax (printSlot 19 0 23) (printTwo [(0, job0 [0])] [(0, some (entry0 ring))]
      (stalled0 (some 0)) (some 0))
      s.chip.ringBusy 0 = ring) := by
  refine ⟨fun kind check h js sp v oj hj => ⟨?_, noneSuspended_of hj _ _ _ _, rfl, (printTwo_reads _ _ _ _ _).2,
    rfl, rfl, rfl, rfl⟩, by decide +kernel⟩
  rw [List.mem_cons, List.mem_pair] at h
  rcases h with h | h | h <;> cases h <;> exact printFrame_of _ _ _ _ (by decide +kernel)

/-- Printer 0 STALLED with job 0 waiting, its one entry not in the ring. -/
def toFeed : State := made fun c =>
  let c := printing [(0, { job0 [0] with state := .waiting })] [(0, some (entry0 false))] none c
  c.withPrt { c.prt with printers := [(0, { stalled0 none with queue := [0] })] }

theorem witness_ResumedPrinterClaimsAndFeeds : toFeed.commandFree ∧ toFeed.chip.ctl.mode = .run ∧
    toFeed.chip.noReactions ∧ (toFeed.chip.staged 1).toNat % 256 = 0 ∧ 0 < toFeed.chip.ctl.unit.np ∧
    (toFeed.chip.printer 0).state = .stalled ∧ toFeed.chip.pairModeOf 0 ≠ .failover ∧
    (toFeed.chip.printer 0).claim = none ∧ (toFeed.chip.printer 0).queue = [] ++ 0 :: [] ∧
    (toFeed.chip.job 0).state ≠ .suspended ∧ (toFeed.chip.job 0).closed = .no ∧
    (toFeed.chip.job 0).reason = none ∧ (toFeed.chip.printer 0).produced = (toFeed.chip.printer 0).done ∧
    (toFeed.chip.printerRec 0).e ≤ 6 ∧ (toFeed.chip.job 0).spool.Nodup ∧
    ∀ i ∈ (toFeed.chip.job 0).spool, ∃ x, toFeed.chip.spoolEntry i = some x ∧ x.inRing = false :=
  ⟨commandFree_made _ (by decide), rfl, rfl, by decide, by decide, by decide, by decide, rfl, rfl, by decide, rfl,
    rfl, rfl, by decide, by decide, fun i h => ⟨entry0 false, by
      rw [List.mem_singleton.mp (show i ∈ [0] from h)]; rfl, rfl⟩⟩

/-- A FAILOVER pair, each printer in a state, with claimants 2 and 3 that have no text, and job 0 or 1 waiting or
no job. -/
def failing (a b : PrinterState) (wait : Bool) : State := made fun c =>
  let c := ctl (fun v => { v with
    unit := { v.unit with np := 2 }
    printers := [(0, { PrinterRec.builtIn with enabled := true, pairMode := .failover })] }) (running c)
  c.withPrt { c.prt with
    jobs := [(0, { job0 [] with state := .waiting }), (1, { job0 [] with state := .waiting, printer := 1 }),
      (2, job0 []), (3, { job0 [] with printer := 1 })]
    printers := [(0, { Printer.blank with state := a, claim := some 2, queue := if wait then [0] else [] }),
      (1, { Printer.blank with state := b, claim := some 3, queue := if wait then [1] else [] })] }

theorem witness_FailoverMovesTheQueue : (∀ a b wait, (failing a b wait).commandFree ∧
      (failing a b wait).chip.ctl.mode = .run ∧ (failing a b wait).chip.noReactions ∧
      ((failing a b wait).chip.staged 1).toNat % 256 = 0 ∧ (failing a b wait).chip.ctl.unit.np = 2 ∧
      (failing a b wait).chip.pairModeOf 0 = .failover ∧
      ((failing a b wait).chip.printer 0).state = a ∧ ((failing a b wait).chip.printer 1).state = b ∧
      ((failing a b wait).chip.printer 0).claim = some 2 ∧ ((failing a b wait).chip.printer 1).claim = some 3 ∧
      ((failing a b wait).chip.job 2).spool = [] ∧ ((failing a b wait).chip.job 3).spool = []) ∧
    ((failing .ready .ready true).chip.printer 0).queue ≠ [] ∧
    ((failing .stalled .held true).chip.printer 1).queue ≠ [] ∧
    ((failing .ready .ready false).chip.printer 0).queue = [] ∧
    ((failing .stalled .held false).chip.printer 1).queue = [] :=
  ⟨fun _ _ _ => ⟨⟨⟨rfl, rfl, by show 0 < 16; decide⟩, rfl⟩, rfl, rfl, rfl, rfl, rfl, rfl, rfl, rfl, rfl, rfl, rfl⟩,
    by decide⟩

/-- A reaction in force on timer 0, which is at its expiry; line 7 an OUTPUT, two printers, the third timer with
a period. -/
def reacting (a : ActionKind) (o : Nat) : State := made fun c =>
  let c := ctl (fun v => { v with unit := { v.unit with nr := 1, np := 2 } }) (running c)
  (((c.putTimer 0 { Timer.blank with running := true }).putTimer 2
    { Timer.blank with record := { period := 5, repeats := false } }).putLine 7
    { Line.blank with record := { LineRec.builtIn with fn := .output } }).putReaction 0
    { ReactionRec.builtIn with trigger := .timer, action := a, actionObj := o, enabled := true }
    |>.putPrinter 0 ready0

/-- A reaction on timer 3, period 0, that starts it again. -/
def chaining (once : Bool) : State := made fun c =>
  (staging [(1, 3)] (ctl (fun v => { v with unit := { v.unit with nr := 1 } }) (running c))).putReaction 0
    { ReactionRec.builtIn with
      trigger := .timer, triggerObj := 3, action := .startTimer, actionObj := 3, enabled := true, once := once }

theorem witness_ReactionsTakeActionsInChains :
    (∀ a o, (reacting a o).chip.timerDue 0 = true ∧ (reacting a o).chip.ctl.mode = .run ∧
      (reacting a o).chip.ctl.unit.nr = 1 ∧ ((reacting a o).chip.reaction 0).action = a ∧
      ((reacting a o).chip.reaction 0).actionObj = o ∧ ((reacting a o).chip.reaction 0).enabled = true ∧
      ((reacting a o).chip.reaction 0).once = false ∧ ((reacting a o).chip.reaction 0).trigger = .timer ∧
      ((reacting a o).chip.reaction 0).triggerObj = 0 ∧
      ((reacting a o).chip.timer 2).record.period ≠ 0 ∧ (reacting a o).chip.ctl.unit.nt = 3 ∧
      ((reacting a o).chip.trunk 0).state.connected = true ∧ ((reacting a o).chip.trunk 0).state.cut = false ∧
      ((reacting a o).chip.line 7).record.fn = .output ∧ ((reacting a o).chip.line 6).record.fn ≠ .output ∧
      (reacting a o).chip.ctl.unit.np = 2 ∧ ((reacting a o).chip.printer 0).state = .ready ∧
      (reacting a o).chip.pairModeOf 0 ≠ .failover) ∧
    ∀ once, (chaining once).commandFree ∧ (chaining once).chip.ctl.mode = .run ∧
      (chaining once).chip.ctl.unit.nr = 1 ∧ ((chaining once).chip.staged 1).toNat % 256 = 3 ∧
      ((chaining once).chip.timer 3).record.period = 0 ∧
      (chaining once).chip.reaction 0 = { ReactionRec.builtIn with
        trigger := .timer, triggerObj := 3, action := .startTimer, actionObj := 3, enabled := true, once := once } :=
  ⟨fun a o => ⟨rfl, rfl, rfl, rfl, rfl, rfl, rfl, rfl, rfl, show 5 ≠ 0 by decide, rfl, rfl, rfl, rfl,
      nofun, rfl, rfl, nofun⟩,
    fun once => ⟨⟨⟨rfl, rfl, by show 0 < 16; decide⟩, rfl⟩, rfl, rfl, rfl, rfl, rfl⟩⟩

/-- Line 0 an INPUT at low with a NOTE on its rise; and line 7 the ready line of printer 0, STALLED. -/
def edgy : State := made fun c =>
  ((ctl (fun v => { v with unit := { v.unit with nr := 1 } }) (running c)).putLine 0
    { Line.blank with record := { LineRec.builtIn with fn := .input } }).putReaction 0
    { ReactionRec.builtIn with trigger := .lineRise, action := .note, enabled := true }
def stalledLine : State := made fun c => (printing [] [] none c).putLine 7
  { Line.blank with record := { LineRec.builtIn with fn := .printerReady } }

theorem witness_LineEdgesAreTaken :
    (edgy.chip.ctl.mode = .run ∧ edgy.chip.nothingDue ∧ edgy.chip.linesDriven ∧
      (∀ l < 8, (edgy.chip.line l).record.fn ≠ .printerReady) ∧
      (edgy.chip.line 0).record.fn.samples = true ∧ (edgy.chip.line 0).sampled = false ∧
      edgy.chip.ctl.unit.nr = 1 ∧ (edgy.chip.reaction 0).action = .note ∧
      (edgy.chip.reaction 0).once = false) ∧
    (stalledLine.chip.ctl.mode = .run ∧ stalledLine.chip.nothingDue ∧ stalledLine.chip.linesDriven ∧
      (stalledLine.chip.line 7).record.fn = .printerReady ∧ (stalledLine.chip.line 7).record.obj = 0 ∧
      (stalledLine.chip.printer 0).state = .stalled ∧ (stalledLine.chip.line 7).sampled = false ∧
      (stalledLine.chip.line 7).record.activeLow = false ∧ (0x80#8).getLsbD 7 = true ∧
      (∀ i < 8, i ≠ 7 → (stalledLine.chip.line i).record.fn ≠ .printerReady) ∧ stalledLine.chip.noReactions ∧
      stalledLine.chip.pairModeOf 0 ≠ .failover ∧ (stalledLine.chip.printer 0).claim = none ∧
      (stalledLine.chip.printer 0).queue = []) :=
  ⟨⟨rfl, nothingDue_of_blank rfl rfl rfl rfl rfl, by unfold Chip.linesDriven; decide +kernel, by decide +kernel⟩,
    rfl, nothingDue_of_blank rfl rfl rfl rfl rfl, by unfold Chip.linesDriven; decide +kernel, rfl, rfl, rfl, rfl, rfl,
    by decide, by decide +kernel, rfl, by decide, rfl, rfl⟩

theorem witness_MemoryStaysCanonical : State.reset.memOk ∧ step State.reset = .next State.reset := ⟨rfl, rfl⟩

theorem witness_PartStaysSound : State.reset.chip.sound ∧ step State.reset = .next State.reset := by
  have hh : ∀ e, State.reset.chip.held e = [] := fun e => by cases e <;> rfl
  have hw : ∀ o, State.reset.chip.waiting o = [] := fun o => by cases o <;> rfl
  refine ⟨⟨Nat.zero_le _, rfl, fun e => by simp [hh e], namesOk_nil hh, ⟨by simp [State.reset, Chip.reset,
    PathUnit.reset], fun o => by simp [hw o]⟩, fun _ => rfl, by unfold UnitRec.inRange; decide⟩, rfl⟩

end Sys2Proof.Tests
end

/-! PROOF. The steps of the machine, said once: what a command can do (`exec_shown`, `exec_own`), and the one
induction by which a predicate on states is kept by every step (`StepKeeps.step`). Memory's canonical form is its
first use. -/

namespace Sys2Proof.Machine

/-! ### What a command does -/

/-- The levels of the general lines once an access's command is taken: those it carries, or the last ones
(assumption 8). -/
def levelsOf (i : Instr) (old : Octet) : Octet :=
  match i with
  | .start _ v => v
  | .status _ v => v
  | .lineRecordCommit _ _ v => v
  | .updateGate _ v => v
  | _ => old

/-- What an access presented on the pins makes of the machine. -/
def presented (p : Pins) (s : State) : State :=
  if s.chip.resetAsserted then rawAccess p.write p.addr.toNat p.be p.data s
  else askAccess p (settle Config.stretchFuel s)

theorem present_presented (p : Pins) (s : State) :
    present p.master p.write p.addr p.be p.data s = .next (presented p s) := by
  unfold present presented
  split <;> rfl

/-- A command that shows an access on the pins is that access and no more (assumption 2). -/
theorem exec_shown {i : Instr} {p : Pins} {s : State} (h : s.chip.shown i = some p) :
    exec i s = .next (presented p (s.setPins (levelsOf i s.chip.pins))) := by
  rw [← present_presented]
  cases i <;> cases h <;> rfl

/-- The part's own work that a command may call for, memory aside. -/
inductive OwnWork : (Chip → Chip) → Prop
  | release (cab : BitVec 7) : OwnWork (resetRise cab)
  | tick (v : Octet) : OwnWork (tickWork top v)
  | second : OwnWork (runSecond top)
  | decay : OwnWork (runDecay top)
  | hold (t : Nat) : OwnWork fun c => runHold top c t
  | trial (t : Nat) : OwnWork fun c => runTrial top c t
  | clear (t : Nat) : OwnWork fun c => runClear c t
  | idle (j : Nat) : OwnWork fun c => runIdle top c j
  | grace (j : Nat) : OwnWork fun c => runGrace top c j
  | timer (k : Nat) : OwnWork fun c => runTimer top c k
  | station : OwnWork applyWaiting
  | place : OwnWork givePlace
  | stage (e : Engine) : OwnWork (stageTwo e)

/-- A command that is no access is a fall of RESET, one of the part's own works, a cycle of the queue, or the end
of a stretch. -/
theorem exec_own {i : Instr} {s : State} (h : s.chip.shown i = none) :
    (∃ b, exec i s = .next (resetFall b s)) ∨
      (∃ f, OwnWork f ∧ exec i s = .next (s.onChip f)) ∨
      (∃ v, exec i s = .next (privateCycle (s.setPins v))) ∨
      ∃ v, exec i s = .next (endStretch (s.setPins v)) := by
  cases i with
  | pinReset b => exact .inl ⟨b, rfl⟩
  | resetRelease cab => exact .inr (.inl ⟨_, .release cab, rfl⟩)
  | tick v => exact .inr (.inl ⟨_, .tick v, rfl⟩)
  | secondBoundary => exact .inr (.inl ⟨_, .second, rfl⟩)
  | decayTick => exact .inr (.inl ⟨_, .decay, rfl⟩)
  | holdExpiry t => exact .inr (.inl ⟨_, .hold t, rfl⟩)
  | trialExpiry t => exact .inr (.inl ⟨_, .trial t, rfl⟩)
  | clearCountdownExpiry t => exact .inr (.inl ⟨_, .clear t, rfl⟩)
  | idleCountdownExpiry j => exact .inr (.inl ⟨_, .idle j, rfl⟩)
  | graceCountdownExpiry j => exact .inr (.inl ⟨_, .grace j, rfl⟩)
  | timerExpiry k => exact .inr (.inl ⟨_, .timer k, rfl⟩)
  | applyStationCommand => exact .inr (.inl ⟨_, .station, rfl⟩)
  | queuePlaceGiven => exact .inr (.inl ⟨_, .place, rfl⟩)
  | stageTwo e => exact .inr (.inl ⟨_, .stage e, rfl⟩)
  | privateCycle v => exact .inr (.inr (.inl ⟨v, rfl⟩))
  | stretchEnd v => exact .inr (.inr (.inr ⟨v, rfl⟩))
  | _ => exact nomatch h

/-! ### Predicates that the bus keeps (R12 to R14) -/

/-- A predicate kept by what happens on the bus: an access that reaches memory, finding a slot where it needs one,
and the part's own moves while WAIT holds an access. -/
structure BusKeeps (Q : State → Prop) : Prop where
  perform : ∀ {x s}, s.chip.noSlotFor x = false → Q s → Q (performAccess x s)
  hold : ∀ {b s}, Q s → Q (s.onChip fun c => c.withPath { c.path with bus := some b })
  free : ∀ {s}, Q s → Q (s.onChip fun c => c.withPath { c.path with bus := none, asking := [] })
  ask : ∀ {b l s}, s.chip.path.bus = some b → Q s →
    Q (s.onChip fun c => c.withPath { c.path with asking := l })
  place : ∀ {s}, Q s → Q (s.onChip givePlace)
  cycle : ∀ {s}, Q s → Q (privateCycle s)
  stage : ∀ {e s}, Q s → Q (s.onChip (stageTwo e))

namespace BusKeeps

variable {Q : State → Prop} {s : State} (hQ : BusKeeps Q)
include hQ

theorem beginAccess (x : Access) (h : Q s) : Q (beginAccess x s) := by
  simp only [Machine.beginAccess]
  split
  · next hx => exact hQ.perform (by simpa using hx.2) h
  · exact hQ.hold h

theorem grantAsked (l : List Pins) (h : Q s) : Q (grantAsked l s) := by
  induction l generalizing s with
  | nil => exact h
  | cons p l ih =>
    cases hb : s.chip.path.bus with
    | none => simpa only [grantAsked_free hb] using ih (hQ.beginAccess _ h)
    | some b => simpa only [grantAsked_held hb] using hQ.ask hb h

theorem endStretch (h : Q s) : Q (endStretch s) := by
  cases hb : s.chip.path.bus with
  | none => rwa [endStretch_free hb]
  | some b =>
    cases ho : s.chip.stretchOver b with
    | false => rwa [endStretch_held hb ho]
    | true =>
      rw [endStretch_over hb ho]
      simp only [Chip.stretchOver, Bool.and_eq_true, Bool.not_eq_true'] at ho
      have hs : (s.onChip fun c => c.withPath { c.path with bus := none, asking := [] }).chip.noSlotFor b.access =
          false := ho.2
      exact hQ.grantAsked _ (hQ.perform hs (hQ.free h))

theorem ownMove {t : State} (h : Q s) (ht : ownMove s = some t) : Q t := by
  unfold Machine.ownMove at ht
  split at ht
  · obtain rfl := Option.some.inj ht
    exact hQ.place h
  · split at ht
    · obtain rfl := Option.some.inj ht
      exact hQ.cycle h
    · split at ht
      · obtain rfl := Option.some.inj ht
        exact hQ.stage h
      · split at ht
        · obtain rfl := Option.some.inj ht
          exact hQ.stage h
        · exact nomatch ht

theorem settle (n : Nat) (h : Q s) : Q (settle n s) := by
  induction n generalizing s with
  | zero => exact h
  | succ n ih =>
    unfold Machine.settle
    split
    · exact h
    · split
      · exact ih (hQ.endStretch h)
      · split
        · next ht => exact ih (hQ.ownMove h ht)
        · exact h

theorem askAccess (p : Pins) (h : Q s) : Q (askAccess p s) := by
  cases hb : s.chip.path.bus with
  | none => simpa only [askAccess_free hb] using hQ.beginAccess _ h
  | some b =>
    rw [askAccess_held hb]
    exact hQ.ask hb h

end BusKeeps

/-! ### Predicates that every step keeps -/

/-- A predicate kept by all that a command can be: what happens on the bus, an access in reset, new levels on the
lines, the fall of RESET, and the part's own works. -/
structure StepKeeps (Q : State → Prop) : Prop extends BusKeeps Q where
  raw : ∀ {w a be d s}, Q s → Q (rawAccess w a be d s)
  levels : ∀ {v s}, Q s → Q (s.setPins v)
  fall : ∀ {b s}, Q s → Q (resetFall b s)
  own : ∀ {f s}, OwnWork f → Q s → Q (s.onChip f)
  pending : ∀ {l s}, Q s → Q { s with pending := l }

namespace StepKeeps

variable {Q : State → Prop} {s t : State} (hQ : StepKeeps Q)
include hQ

theorem presented (p : Pins) (h : Q s) : Q (presented p s) := by
  unfold Machine.presented
  split
  · exact hQ.raw h
  · exact hQ.askAccess p (hQ.settle _ h)

theorem exec {i : Instr} (h : Q s) (ht : exec i s = .next t) : Q t := by
  cases hi : s.chip.shown i with
  | some p =>
    obtain rfl := Host.Outcome.next.inj ((exec_shown hi).symm.trans ht)
    exact hQ.presented p (hQ.levels h)
  | none =>
    rcases exec_own hi with ⟨b, he⟩ | ⟨f, hf, he⟩ | ⟨v, he⟩ | ⟨v, he⟩ <;>
      obtain rfl := Host.Outcome.next.inj (he.symm.trans ht)
    · exact hQ.fall h
    · exact hQ.own hf h
    · exact hQ.cycle (hQ.levels h)
    · exact hQ.endStretch (hQ.levels h)

/-- A predicate that every command keeps is kept by every step. -/
theorem step (h : Q s) (ht : step s = .next t) : Q t := by
  unfold Machine.step at ht
  split at ht
  · obtain rfl := Host.Outcome.next.inj ht
    exact h
  · exact hQ.exec (hQ.pending h) ht

end StepKeeps

/-! ### Memory's canonical form (assumption 4) -/

theorem writeAccess_memOk {x : Access} {s : State} (h : s.memOk) : (writeAccess x s).memOk := by
  unfold writeAccess
  split
  · exact h
  · exact Memory.wf_writeMasked _ _ _ h

theorem performAccess_memOk {x : Access} {s : State} (h : s.memOk) : (performAccess x s).memOk := by
  unfold performAccess
  split
  · exact writeAccess_memOk h
  · exact h

theorem privateCycle_memOk {s : State} (h : s.memOk) : (privateCycle s).memOk := by
  unfold privateCycle
  split
  · exact h
  · split
    · exact Memory.wf_writeRun _ _ _ _ h
    · exact h
    · exact h

theorem rawAccess_memOk {w : Bool} {a : Nat} {be : BitVec 2} {d : Word} {s : State} (h : s.memOk) :
    (rawAccess w a be d s).memOk := by
  unfold rawAccess
  split
  · exact Memory.wf_writeMasked _ _ _ h
  · exact h

theorem breakCycle_memOk {s : State} (h : s.memOk) : (breakCycle s).memOk := by
  unfold breakCycle
  split
  · exact h
  · split
    · exact Memory.wf_writeRun _ _ _ _ h
    · exact h

theorem releaseBus_memOk {s : State} (h : s.memOk) : (releaseBus s).memOk := by
  unfold releaseBus
  split
  · exact h
  · exact List.foldlRecOn _ _ (rawAccess_memOk h) fun _ hs _ _ => rawAccess_memOk hs

theorem resetFall_memOk {b : Bool} {s : State} (h : s.memOk) : (resetFall b s).memOk := by
  unfold resetFall
  split
  · exact releaseBus_memOk (breakCycle_memOk h)
  · exact releaseBus_memOk h

theorem stepKeeps_memOk : StepKeeps State.memOk where
  perform _ h := performAccess_memOk h
  hold h := h
  free h := h
  ask _ h := h
  place h := h
  cycle h := privateCycle_memOk h
  stage h := h
  raw h := rawAccess_memOk h
  levels h := h
  fall h := resetFall_memOk h
  own _ h := h
  pending h := h

/-- Settles O58: every change of memory is a write of octets, and each keeps the table canonical. -/
theorem memoryStaysCanonical : Obligations.MemoryStaysCanonical := by
  unfold Obligations.MemoryStaysCanonical
  exact fun s t h ht => stepKeeps_memOk.step h ht

end Sys2Proof.Machine

/-! PROOF. Predicates on the part that the work of the print, health, station and reaction units keeps. Every
operation of these units is made of a few elementary changes, so a predicate kept by those (`WorkKeeps`,
`TrunkKeeps`) is kept by all of them: one lemma an operation, in the order of the model. -/

namespace Sys2Proof.Machine

/-- A predicate kept by the elementary changes that the print, station and reaction units make: their own tables,
the working and awaiting printer records, an event, and a deposit into a printer ring. -/
structure WorkKeeps (P : Chip → Prop) : Prop where
  stn : ∀ {v c}, P c → P (c.withStn v)
  prt : ∀ {v c}, P c → P (c.withPrt v)
  rct : ∀ {v c}, P c → P (c.withRct v)
  printerRec : ∀ {p v c}, P c → P (c.putPrinterRec p v)
  awaiting : ∀ {p v c}, P c → P (c.putAwaitingPrinter p v)
  event : ∀ {v c}, P c → P (recordEvent v c)
  feed : ∀ {p i a ws c}, 1 ≤ ws.length → ws.length ≤ 16 → P c →
    P (formDeposit .print (.printerDescriptor p i) a ws c)

/-- The same with the trunk records, which the health unit changes too. -/
structure TrunkKeeps (P : Chip → Prop) : Prop extends WorkKeeps P where
  hlth : ∀ {v c}, P c → P (c.withHlth v)

/-- What takes a trigger keeps a predicate; what serves a printer does. -/
def GiveKeeps (P : Chip → Prop) (g : Give) : Prop := ∀ ⦃v c⦄, P c → P (g v c)
def ServeKeeps (P : Chip → Prop) (srv : Nat → Chip → Chip) : Prop := ∀ ⦃p c⦄, P c → P (srv p c)

theorem ite_keeps {P : Chip → Prop} {b : Prop} [Decidable b] {x y : Chip} (hx : P x) (hy : P y) :
    P (if b then x else y) := by
  split <;> assumption

section Work

variable {P : Chip → Prop} {c : Chip} {g : Give} {srv : Nat → Chip → Chip} {p n t i j : Nat}
  (hP : WorkKeeps P)
include hP

/-! ### Jobs and the spool -/

theorem freeEntry_keeps (h : P c) : P (freeEntry i c) := by
  unfold freeEntry
  split
  · exact h
  · exact hP.prt (hP.prt h)

theorem returnEntry_keeps (h : P c) : P (returnEntry i c) := by
  unfold returnEntry
  split
  · exact h
  · exact ite_keeps (freeEntry_keeps hP h) (hP.prt (hP.prt h))

theorem clearOpenJob_keeps (h : P c) : P (clearOpenJob n j c) := ite_keeps (hP.stn h) h

theorem endJob_keeps (hs : ServeKeeps P srv) (hg : GiveKeeps P g) (h : P c) : P (endJob srv g j c) := by
  unfold endJob
  extract_lets v p d f
  have hd : P d := by
    unfold d
    split <;> exact hg (hP.event h)
  have hf : P f := clearOpenJob_keeps hP hd
  exact ite_keeps (hs (hP.prt (hP.prt hf))) (hP.prt hf)

/-! ### Feeding and claims -/

theorem feedEntry_keeps {e : SpoolEntry} (h : P c) : P (feedEntry p i e c) :=
  hP.feed (by simp) (by simp) (hP.feed (by simp) (by simp) (hP.prt (hP.prt h)))

theorem feedN_keeps (h : P c) : P (feedN p n c) := by
  induction n generalizing c with
  | zero => exact h
  | succ n ih =>
    unfold feedN
    split
    · exact h
    · split
      · exact h
      · exact ih (feedEntry_keeps hP h)

theorem startJob_keeps (h : P c) : P (startJob p j c) :=
  hP.event (ite_keeps (hP.prt (hP.prt h)) (hP.prt (hP.prt h)))

/-! ### Pairs, printer states and records -/

theorem moveJobs_keeps (hs : ServeKeeps P srv) (h : P c) : P (moveJobs srv i j c) := by
  unfold moveJobs
  extract_lets jobs d
  have hd : P d := List.foldlRecOn _ _ h fun _ hb _ _ => hP.prt hb
  exact ite_keeps h (hs (hP.event (hP.prt (hP.prt hd))))

theorem failover_keeps (hs : ServeKeeps P srv) {old new : PrinterState} (h : P c) :
    P (failover srv p old new c) :=
  ite_keeps (ite_keeps (moveJobs_keeps hP hs h) (ite_keeps (moveJobs_keeps hP hs h) h)) h

omit hP in
theorem printerTrigger_keeps (hg : GiveKeeps P g) {new : PrinterState} (h : P c) :
    P (printerTrigger g p new c) := by
  unfold printerTrigger
  split
  · exact hg h
  · exact hg h
  · exact h

theorem setPrinterState_keeps (hs : ServeKeeps P srv) (hg : GiveKeeps P g) {new : PrinterState}
    {cause : PrinterCause} (h : P c) : P (setPrinterState srv g p new cause c) :=
  ite_keeps h (printerTrigger_keeps hg (hs (failover_keeps hP hs (hP.event (hP.rct (hP.prt h))))))

theorem takeBack_keeps (hs : ServeKeeps P srv) (hg : GiveKeeps P g) (h : P c) : P (takeBack srv g p c) := by
  unfold takeBack
  extract_lets d
  have hd : P d := List.foldlRecOn _ _ h fun _ hb _ _ => returnEntry_keeps hP hb
  split
  · exact hd
  · exact ite_keeps (endJob_keeps hP hs hg hd) hd

theorem resetView_keeps (h : P c) : P (resetView p c) := hP.prt h

theorem applyPrinterRec_keeps (hs : ServeKeeps P srv) (hg : GiveKeeps P g) {r : PrinterRec} (h : P c) :
    P (applyPrinterRec srv g p r c) := by
  unfold applyPrinterRec
  extract_lets old d f
  have hd : P d := resetView_keeps hP (hP.printerRec (takeBack_keeps hP hs hg h))
  have hf : P f :=
    ite_keeps (setPrinterState_keeps hP hs hg hd) (ite_keeps (setPrinterState_keeps hP hs hg hd) hd)
  exact ite_keeps (hP.printerRec h) (hP.printerRec hf)

theorem applyAwaiting_keeps (hs : ServeKeeps P srv) (hg : GiveKeeps P g) (h : P c) :
    P (applyAwaiting srv g p c) := by
  unfold applyAwaiting
  split
  · exact h
  · exact ite_keeps (applyPrinterRec_keeps hP hs hg (hP.awaiting h)) h

theorem serveN_keeps (hg : GiveKeeps P g) (h : P c) : P (serveN g n p c) := by
  induction n generalizing p c with
  | zero => exact h
  | succ n ih =>
    unfold serveN
    split
    · exact feedN_keeps hP h
    · have hs : ServeKeeps P (afterRelease (serveN g n) g) := fun _ _ hc =>
        ih (applyAwaiting_keeps hP (fun _ _ => ih) hg hc)
      exact ite_keeps (endJob_keeps hP hs hg (startJob_keeps hP h)) (feedN_keeps hP (startJob_keeps hP h))

theorem serve_keeps (hg : GiveKeeps P g) : ServeKeeps P (serve g) := fun _ _ => serveN_keeps hP hg

theorem finishJob_keeps (hg : GiveKeeps P g) (h : P c) : P (finishJob g j c) :=
  endJob_keeps hP
    (fun _ _ hc => serve_keeps hP hg (applyAwaiting_keeps hP (serve_keeps hP hg) hg hc)) hg h

theorem testEnd_keeps (hg : GiveKeeps P g) (h : P c) : P (testEnd g j c) :=
  ite_keeps (finishJob_keeps hP hg h) h

/-! ### Abandonment, suspension and resumption -/

theorem abandon_keeps (hg : GiveKeeps P g) {r : AbandonReason} (h : P c) : P (abandon g j r c) := by
  unfold abandon
  extract_lets v p d e q f k w m
  have hf : P f := hP.prt (clearOpenJob_keeps hP (hP.prt h))
  have hk : P k := List.foldlRecOn _ _ hf fun _ hb _ _ => freeEntry_keeps hP hb
  have hm : P m := ite_keeps (hP.prt hk) hk
  exact ite_keeps h (testEnd_keeps hP hg hm)

theorem abandonOpen_keeps (hg : GiveKeeps P g) {r : AbandonReason} (h : P c) : P (abandonOpen g n r c) := by
  unfold abandonOpen
  split
  · exact h
  · exact clearOpenJob_keeps hP (abandon_keeps hP hg h)

theorem suspendJob_keeps (h : P c) : P (suspendJob t j c) := hP.event (hP.prt h)

theorem resumeJob_keeps (hg : GiveKeeps P g) {cause : ResumeCause} (h : P c) : P (resumeJob g cause j c) :=
  ite_keeps (serve_keeps hP hg (hP.event (hP.prt h))) (hP.event (hP.prt h))

theorem jobsFollowTrunk_keeps (hg : GiveKeeps P g) {old new : TrunkState} (h : P c) :
    P (jobsFollowTrunk g t old new c) :=
  ite_keeps (List.foldlRecOn _ _ h fun _ hb _ _ => ite_keeps (suspendJob_keeps hP hb) hb)
    (ite_keeps (List.foldlRecOn _ _ h fun _ hb _ _ => ite_keeps (resumeJob_keeps hP hg hb) hb) h)

theorem jobsHeard_keeps (hg : GiveKeeps P g) (h : P c) : P (jobsHeard g n c) :=
  List.foldlRecOn _ _ h fun _ hb _ _ => ite_keeps (resumeJob_keeps hP hg hb) hb

/-! ### Completions of printer descriptors, printer commands -/

theorem advanceDone_keeps (h : P c) : P (advanceDone p n c) := by
  induction n generalizing c with
  | zero => exact h
  | succ n ih => exact ite_keeps (ih (hP.prt h)) h

theorem dealEntry_keeps {err : Nat} {e : SpoolEntry} {w : Word} (h : P c) : P (dealEntry err i e w c).2 := by
  unfold dealEntry
  split_ifs
  · exact hP.prt (freeEntry_keeps hP h)
  · exact returnEntry_keeps hP h
  · exact hP.prt (freeEntry_keeps hP h)
  · exact returnEntry_keeps hP (hP.prt (hP.prt h))

theorem completeDescriptor_keeps (hg : GiveKeeps P g) {w : Word} (h : P c) :
    P (completeDescriptor g p i w c) := by
  unfold completeDescriptor
  extract_lets d marked
  split
  · exact hP.event h
  · split
    · exact hP.event h
    · extract_lets dealt f k
      have hf : P f := advanceDone_keeps hP (dealEntry_keeps hP (hP.prt h))
      have hk : P k := ite_keeps (setPrinterState_keeps hP (serve_keeps hP hg) hg hf) hf
      exact serve_keeps hP hg (testEnd_keeps hP hg hk)

theorem printerRingWrite_keeps (hg : GiveKeeps P g) {m : Master} {full : Bool} {off : Nat} {w : Word} (h : P c) :
    P (printerRingWrite g m full p off w c) :=
  ite_keeps (ite_keeps (completeDescriptor_keeps hP hg h) (ite_keeps (hP.prt h) h)) h

theorem holdPrinter_keeps (hg : GiveKeeps P g) {cause : PrinterCause} (h : P c) :
    P (holdPrinter g cause p c).2 := by
  unfold holdPrinter
  split
  · exact h
  · exact setPrinterState_keeps hP (serve_keeps hP hg) hg h

theorem resumePrinter_keeps (hg : GiveKeeps P g) {cause : PrinterCause} (h : P c) :
    P (resumePrinter g cause p c).2 := by
  unfold resumePrinter
  split
  · exact h
  · exact setPrinterState_keeps hP (serve_keeps hP hg) hg h

/-! ### Print frames -/

theorem assignPrinter_keeps (h : P c) : P (assignPrinter n c).2 := by
  unfold assignPrinter
  dsimp only
  split
  · exact h
  · exact h
  · exact hP.prt h

theorem openJob_keeps (hg : GiveKeeps P g) {f : PrintFrame} (h : P c) : P (openJob g j p f c) :=
  serve_keeps hP hg (hP.event (hP.prt (hP.stn (hP.prt h))))

theorem openFresh_keeps (hg : GiveKeeps P g) {f : PrintFrame} (h : P c) : P (openFresh g n f c).2 := by
  unfold openFresh
  extract_lets d
  have hd : P d := abandonOpen_keeps hP hg h
  split
  · exact hd
  · exact openJob_keeps hP hg (assignPrinter_keeps hP hd)

theorem printOpen_keeps (hg : GiveKeeps P g) {f : PrintFrame} (h : P c) : P (printOpen g f c).2 := by
  unfold printOpen
  split
  · split_ifs
    · exact h
    · exact h
    · exact openFresh_keeps hP hg h
  · split_ifs
    · exact h
    · exact openFresh_keeps hP hg h

theorem acceptData_keeps (hg : GiveKeeps P g) {f : PrintFrame} (h : P c) : P (acceptData g j i f c) :=
  serve_keeps hP hg (hP.prt (hP.prt h))

theorem printData_keeps (hg : GiveKeeps P g) {f : PrintFrame} (h : P c) : P (printData g f c).2 := by
  unfold printData
  split
  · exact h
  · dsimp only
    split
    · exact h
    · split
      · exact h
      · split
        · exact hP.prt h
        · split
          · exact h
          · split
            · exact h
            · exact acceptData_keeps hP hg h

theorem printClose_keeps (hg : GiveKeeps P g) {f : PrintFrame} (h : P c) : P (printClose g f c).2 := by
  unfold printClose
  split
  · exact h
  · exact testEnd_keeps hP hg (clearOpenJob_keeps hP (hP.prt h))

theorem printAbort_keeps (hg : GiveKeeps P g) {f : PrintFrame} (h : P c) : P (printAbort g f c).2 := by
  unfold printAbort
  split
  · exact h
  · exact abandon_keeps hP hg h

theorem printFrame_keeps (hg : GiveKeeps P g) {f : PrintFrame} (h : P c) : P (printFrame g f c).2 := by
  unfold printFrame
  split_ifs
  · exact printOpen_keeps hP hg h
  · exact printData_keeps hP hg h
  · exact printClose_keeps hP hg h
  · exact printAbort_keeps hP hg h

theorem idleExpiry_keeps (hg : GiveKeeps P g) (h : P c) : P (idleExpiry g j c) :=
  ite_keeps (hP.prt h) (testEnd_keeps hP hg (clearOpenJob_keeps hP (hP.prt h)))

theorem graceExpiry_keeps (hg : GiveKeeps P g) (h : P c) : P (graceExpiry g j c) :=
  abandon_keeps hP hg (hP.prt h)

/-! ### The station unit in a trunk state change; station standing -/

theorem setPresence_keeps {v : Presence} (h : P c) : P (setPresence n v c) := ite_keeps h (hP.event (hP.stn h))

theorem stationsCut_keeps (h : P c) : P (stationsCut t c) :=
  List.foldlRecOn _ _ h fun _ hb _ _ => ite_keeps (setPresence_keeps hP hb) hb

theorem stationsBack_keeps (h : P c) : P (stationsBack t c) :=
  List.foldlRecOn _ _ h fun _ hb _ _ => ite_keeps (setPresence_keeps hP hb) hb

theorem stationsFollowTrunk_keeps {old new : TrunkState} (h : P c) : P (stationsFollowTrunk t old new c) :=
  ite_keeps (stationsCut_keeps hP h) (ite_keeps (stationsBack_keeps hP h) h)

theorem receiveTrigger_keeps : GiveKeeps P receiveTrigger := fun _ _ h => hP.rct h

theorem receiving_keeps {f : Give → Chip → Chip} (hf : ∀ {d}, P d → P (f receiveTrigger d)) (h : P c) :
    P (receiving f c).2 :=
  hP.rct (hf (hP.rct h))

theorem handOnTrunk_keeps (hg : GiveKeeps P g) {old : TrunkState} {cause : TrunkCause} (h : P c) :
    P (handOnTrunk g t old cause c) := by
  unfold handOnTrunk
  extract_lets r d jobs f
  have hd : P d := ite_keeps h (stationsFollowTrunk_keeps hP h)
  have hj : P jobs.2 := receiving_keeps hP (jobsFollowTrunk_keeps hP (receiveTrigger_keeps hP)) hd
  have hf : P f := hP.rct (hP.event hj)
  exact List.foldlRecOn _ _ (hg hf) fun _ hb _ _ => hg hb

theorem quarantineStation_keeps (hg : GiveKeeps P g) {cause : Nat} (h : P c) :
    P (quarantineStation g n cause c) :=
  hg (abandonOpen_keeps hP hg (hP.event (hP.stn h)))

theorem releaseStanding_keeps {cause : Nat} (h : P c) : P (releaseStanding n cause c) :=
  hP.event (hP.stn h)

theorem chargeStation_keeps (hg : GiveKeeps P g) {w : Nat} (h : P c) : P (chargeStation g n w c) :=
  ite_keeps h (ite_keeps (quarantineStation_keeps hP hg (hP.stn h)) (hP.stn h))

theorem decayStation_keeps (h : P c) : P (decayStation n c) :=
  ite_keeps h (ite_keeps (releaseStanding_keeps hP (hP.stn h)) (hP.stn h))

theorem quarantineCommand_keeps (hg : GiveKeeps P g) (h : P c) : P (quarantineCommand g n c).2 := by
  unfold quarantineCommand
  split
  · exact h
  · exact ite_keeps (hP.stn h) (quarantineStation_keeps hP hg (hP.stn h))

theorem releaseStationCommand_keeps (h : P c) : P (releaseStationCommand n c).2 := by
  unfold releaseStationCommand
  split
  · exact h
  · exact ite_keeps (releaseStanding_keeps hP (hP.stn h)) (hP.stn h)

/-! ### Timers and lines -/

theorem timerExpiry_keeps (hg : GiveKeeps P g) (h : P c) : P (timerExpiry g n c) := hg (hP.event (hP.rct h))

theorem startTimer_keeps (hg : GiveKeeps P g) (h : P c) : P (startTimer g n c).2 := by
  unfold startTimer
  split
  · exact h
  · exact ite_keeps (timerExpiry_keeps hP hg (hP.rct h)) (hP.rct h)

theorem stopTimer_keeps (h : P c) : P (stopTimer n c).2 := by
  unfold stopTimer
  split
  · exact h
  · exact hP.rct h

theorem applyTimerRec_keeps {r : TimerRec} (h : P c) : P (applyTimerRec n r c) :=
  ite_keeps (ite_keeps (hP.rct h) (hP.rct h)) (hP.rct h)

theorem redriveLines_keeps (h : P c) : P (redriveLines c) := hP.rct h

theorem applyLineRec_keeps {r : LineRec} (h : P c) : P (applyLineRec n r c) :=
  ite_keeps (hP.rct (redriveLines_keeps hP (hP.rct h))) (redriveLines_keeps hP (hP.rct h))

theorem setLine_keeps {v : Level} (h : P c) : P (setLine n v c).2 := by
  unfold setLine
  split_ifs
  · exact h
  · exact h
  · exact redriveLines_keeps hP (hP.rct h)

theorem sampleLines_keeps (h : P c) : P (sampleLines c) :=
  List.foldlRecOn _ _ h fun _ hb _ _ => ite_keeps (hP.rct hb) hb

theorem sampleLine_keeps (hg : GiveKeeps P g) (h : P c) : P (sampleLine g c n) := by
  unfold sampleLine
  extract_lets v now d q f
  have hd : P d := hP.rct h
  have hf : P f := ite_keeps (setPrinterState_keeps hP (serve_keeps hP hg) hg hd) hd
  exact ite_keeps h (ite_keeps (hg hf) (hg hd))

/-! ### Hearings -/

theorem placeLegacy_keeps (h : P c) : P (placeLegacy n t c) := hP.event (hP.stn h)

theorem evictProxy_keeps (hg : GiveKeeps P g) (h : P c) : P (evictProxy g n c) :=
  hP.event (abandonOpen_keeps hP hg h)

theorem freeProxyEntry_keeps {r : FreeReason} (h : P c) : P (freeProxyEntry n r c) := hP.event (hP.stn h)

theorem noticeHearing_keeps (hg : GiveKeeps P g) (h : P c) : P (noticeHearing g n c) :=
  ite_keeps (jobsHeard_keeps hP hg h) h

theorem hearHome_keeps (hg : GiveKeeps P g) (h : P c) : P (hearHome g n c) :=
  noticeHearing_keeps hP hg (ite_keeps (hP.event (hP.stn h)) (hP.stn h))

theorem hearMove_keeps (hg : GiveKeeps P g) (h : P c) : P (hearMove g n t c) :=
  noticeHearing_keeps hP hg (hP.event (hP.stn h))

theorem hearFlap_keeps (hg : GiveKeeps P g) (h : P c) : P (hearFlap g n t c) :=
  noticeHearing_keeps hP hg (hP.event (hP.stn h))

theorem hear_keeps (hg : GiveKeeps P g) (h : P c) : P (hear g n t c).2 := by
  unfold hear
  dsimp only
  split
  · exact placeLegacy_keeps hP h
  · split_ifs
    · exact hP.event h
    · exact placeLegacy_keeps hP (evictProxy_keeps hP hg h)
  · exact hP.event h
  · split_ifs
    · exact hearHome_keeps hP hg h
    · exact hearFlap_keeps hP hg h
    · exact hearMove_keeps hP hg h

/-! ### Lookup, allocation and reclaim -/

theorem lendNumber_keeps {x : NewAddr} (h : P c) : P (lendNumber p i x c) := hP.stn (hP.event (hP.stn h))

theorem poolEmpty_keeps (hg : GiveKeeps P g) {x : NewAddr} (h : P c) : P (poolEmpty g x c) :=
  ite_keeps h (hg (hP.event (hP.stn h)))

theorem reclaimNumber_keeps {x : NewAddr} (h : P c) : P (reclaimNumber p x c) := by
  unfold reclaimNumber
  dsimp only
  have hr : P (recordEvent (evProxyReclaimed p (c.station p).addr) (emptyStation p c)) := hP.event (hP.stn h)
  split
  · exact lendNumber_keeps hP hr
  · exact hr

theorem allocate_keeps (hg : GiveKeeps P g) {x : NewAddr} (h : P c) : P (allocate g x c).2 := by
  unfold allocate
  split
  · exact lendNumber_keeps hP h
  · split
    · exact reclaimNumber_keeps hP h
    · exact poolEmpty_keeps hP hg h

theorem lookup_keeps (hg : GiveKeeps P g) {x : NewAddr} (h : P c) : P (lookup g x c).2 := by
  unfold lookup
  split
  · exact hP.event h
  · split
    · exact hP.stn h
    · split
      · exact h
      · exact allocate_keeps hP hg h

/-! ### Aging and the station commands -/

theorem applyLegacyLimits_keeps (hg : GiveKeeps P g) (h : P c) : P (applyLegacyLimits g n c) := by
  unfold applyLegacyLimits
  extract_lets e d
  have hd : P d := ite_keeps (setPresence_keeps hP h) h
  exact ite_keeps h (ite_keeps (hP.event (hP.stn (abandonOpen_keeps hP hg hd))) hd)

theorem applyProxyLimit_keeps (h : P c) : P (applyProxyLimit n c) := ite_keeps (freeProxyEntry_keeps hP h) h

theorem secondBoundaryWork_keeps (hg : GiveKeeps P g) (h : P c) : P (secondBoundaryWork g c) :=
  List.foldlRecOn _ _
    (List.foldlRecOn _ _ (List.foldlRecOn _ _ (hP.stn h) fun _ hb _ _ => hP.stn hb)
      fun _ hb _ _ => applyLegacyLimits_keeps hP hg hb)
    fun _ hb _ _ => applyProxyLimit_keeps hP hb

theorem applySetStation_keeps {a1 a2 a3 a4 : Word} (h : P c) : P (applySetStation a1 a2 a3 a4 c).2 := by
  unfold applySetStation
  split
  · exact h
  · dsimp only
    split <;> exact hP.event (hP.stn (hP.stn h))

theorem applyClearStation_keeps {a1 : Word} (h : P c) : P (applyClearStation a1 c).2 := by
  unfold applyClearStation
  dsimp only
  split_ifs
  · exact h
  · exact h
  · exact h
  · exact hP.event (hP.stn h)

theorem applyFreeProxy_keeps {a1 : Word} (h : P c) : P (applyFreeProxy a1 c).2 := by
  unfold applyFreeProxy
  dsimp only
  split_ifs
  · exact h
  · exact h
  · exact h
  · exact freeProxyEntry_keeps hP h

theorem applyStation_keeps {op : StationCommand} {a1 a2 a3 a4 : Word} (h : P c) :
    P (applyStation op a1 a2 a3 a4 c).2 := by
  unfold applyStation
  split
  · exact applySetStation_keeps hP h
  · exact applyClearStation_keeps hP h
  · exact applyFreeProxy_keeps hP h

theorem cancelJob_keeps (hg : GiveKeeps P g) (h : P c) : P (cancelJob g j c).2 := by
  unfold cancelJob
  split
  · exact h
  · exact abandon_keeps hP hg h

/-! ### A unit record commit and the table -/

theorem makeUnit_keeps (h : P c) : P (makeUnit c) := ite_keeps h (hP.event (hP.stn h))

theorem dropOldUnit_keeps (h : P c) : P (dropOldUnit c) :=
  List.foldlRecOn _ _ h fun _ hb _ _ => ite_keeps (hP.stn hb) hb

theorem reviewProxy_keeps (hg : GiveKeeps P g) (h : P c) : P (reviewProxy g c n) :=
  ite_keeps h (ite_keeps (freeProxyEntry_keeps hP (abandonOpen_keeps hP hg h))
    (ite_keeps (freeProxyEntry_keeps hP (abandonOpen_keeps hP hg h)) h))

theorem stationsUnitCommit_keeps (hg : GiveKeeps P g) (h : P c) : P (stationsUnitCommit g n c) :=
  hP.stn (List.foldlRecOn _ _
    (List.foldlRecOn _ _
      (List.foldlRecOn _ _ (makeUnit_keeps hP (dropOldUnit_keeps hP h))
        fun _ hb _ _ => ite_keeps (stationsCut_keeps hP hb) hb)
      fun _ hb _ _ => ite_keeps (stationsBack_keeps hP hb) hb)
    fun _ hb _ _ => reviewProxy_keeps hP hg hb)

theorem printersUnitCommit_keeps (hg : GiveKeeps P g) (h : P c) : P (printersUnitCommit g n c) :=
  List.foldlRecOn _ _ h fun _ hb _ _ =>
    ite_keeps (setPrinterState_keeps hP (serve_keeps hP hg) hg
        (resetView_keeps hP (takeBack_keeps hP (serve_keeps hP hg) hg hb)))
      (ite_keeps (setPrinterState_keeps hP (serve_keeps hP hg) hg (resetView_keeps hP hb)) hb)

end Work

section Trunk

variable {P : Chip → Prop} {c : Chip} {g : Give} {p n t i j : Nat} (hP : TrunkKeeps P)
include hP

/-! ### The health unit -/

theorem moveTrunk_keeps (hg : GiveKeeps P g) {r : Trunk} {cause : TrunkCause} (h : P c) :
    P (moveTrunk g t r cause c) :=
  ite_keeps (hP.hlth h) (handOnTrunk_keeps hP.toWorkKeeps hg (hP.hlth h))

theorem chargeTrunk_keeps (hg : GiveKeeps P g) {w : Nat} (h : P c) : P (chargeTrunk g t w c) := by
  unfold chargeTrunk
  extract_lets r k r' d now
  have hd : P d := ite_keeps (moveTrunk_keeps hP hg h) (hP.hlth h)
  exact ite_keeps h (ite_keeps (moveTrunk_keeps hP hg hd) hd)

theorem lowerTrunk_keeps (hg : GiveKeeps P g) {s : Nat} (h : P c) : P (lowerTrunk g t s c) :=
  ite_keeps h (ite_keeps (moveTrunk_keeps hP hg h) (hP.hlth h))

theorem decayTrunk_keeps (hg : GiveKeeps P g) (h : P c) : P (decayTrunk g t c) := lowerTrunk_keeps hP hg h

theorem stageOne_keeps (hg : GiveKeeps P g) {err : Nat} (h : P c) : P (stageOne g t err c) :=
  ite_keeps h (ite_keeps (lowerTrunk_keeps hP hg h) (chargeTrunk_keeps hP hg h))

theorem isolateTrunk_keeps (hg : GiveKeeps P g) {cause : TrunkCause} (h : P c) :
    P (isolateTrunk g cause t c).2 := by
  unfold isolateTrunk
  dsimp only
  split_ifs
  · exact h
  · exact moveTrunk_keeps hP hg h
  · exact hP.hlth h
  · exact h

theorem releaseTrunk_keeps (hg : GiveKeeps P g) {cause : TrunkCause} (h : P c) :
    P (releaseTrunk g cause t c).2 := by
  unfold releaseTrunk
  dsimp only
  split
  · exact h
  · split
    · exact moveTrunk_keeps hP hg h
    · exact moveTrunk_keeps hP hg h
    · exact h

theorem trunksUnitCommit_keeps (hg : GiveKeeps P g) (h : P c) : P (trunksUnitCommit g n c) :=
  List.foldlRecOn _ _ h fun _ hb _ _ =>
    ite_keeps (moveTrunk_keeps hP hg hb) (ite_keeps (moveTrunk_keeps hP hg hb) hb)

/-! ### The reaction table -/

theorem takeAction_keeps (hg : GiveKeeps P g) {r : ReactionRec} (h : P c) : P (takeAction g n r c) := by
  unfold takeAction
  split
  · exact h
  · exact startTimer_keeps hP.toWorkKeeps hg h
  · exact stopTimer_keeps hP.toWorkKeeps h
  · exact setLine_keeps hP.toWorkKeeps h
  · exact setLine_keeps hP.toWorkKeeps h
  · exact isolateTrunk_keeps hP hg h
  · exact releaseTrunk_keeps hP hg h
  · exact holdPrinter_keeps hP.toWorkKeeps hg h
  · exact resumePrinter_keeps hP.toWorkKeeps hg h
  · exact hP.event h

theorem fireReaction_keeps (hg : GiveKeeps P g) {v : Trigger} (h : P c) : P (fireReaction g v c n) :=
  ite_keeps (takeAction_keeps hP hg (ite_keeps (hP.rct h) h)) h

/-- A chain of reactions of any depth is made of the same elementary changes. -/
theorem giveTrigger_keeps : GiveKeeps P (giveTrigger n) := by
  induction n with
  | zero =>
    intro v c h
    unfold giveTrigger
    split
    · split
      · exact hP.event h
      · exact h
    · exact h
  | succ n ih =>
    intro v c h
    exact ite_keeps (List.foldlRecOn _ _ h fun _ hb _ _ => fireReaction_keeps hP ih hb) h

theorem top_keeps : GiveKeeps P top := giveTrigger_keeps hP

/-! ### The evaluation of a frame -/

theorem coaxStation_keeps (hg : GiveKeeps P g) {v : Slot} (h : P c) : P (coaxStation g v c).2.2 := by
  unfold coaxStation
  split
  · exact h
  · dsimp only
    split
    · exact h
    · exact hear_keeps hP.toWorkKeeps hg h

theorem pairStation_keeps (hg : GiveKeeps P g) {v : Slot} (h : P c) : P (pairStation g v c).2 := by
  have hl : P (lookup g v.sourceAddr c).2 := lookup_keeps hP.toWorkKeeps hg h
  unfold pairStation
  split_ifs
  · exact h
  · exact h
  · split
    · exact h
    · split
      · exact h
      · dsimp only
        split <;> exact hl

theorem stagePrint_keeps (hg : GiveKeeps P g) {e : Engine} {v : Slot} {r : Verdict} (h : P c) :
    P (stagePrint g e v r c).2 := by
  unfold stagePrint
  split
  · exact printFrame_keeps hP.toWorkKeeps hg h
  · exact h

theorem stageHealth_keeps (hg : GiveKeeps P g) {v : Slot} {heard : Heard} (h : P c) :
    P (stageHealth g v heard c) := by
  unfold stageHealth
  extract_lets k d s
  have hd : P d := ite_keeps (chargeTrunk_keeps hP hg h) h
  exact ite_keeps (chargeTrunk_keeps hP hg h) (ite_keeps hd (chargeStation_keeps hP.toWorkKeeps hg hd))

theorem evaluate_keeps (hg : GiveKeeps P g) {e : Engine} {v : Slot} (h : P c) : P (evaluate g e v c).2 := by
  unfold evaluate
  split
  · exact h
  · split
    · split
      · exact h
      · exact stagePrint_keeps hP hg (stageHealth_keeps hP hg (coaxStation_keeps hP hg h))
    · exact stagePrint_keeps hP hg (pairStation_keeps hP hg h)

end Trunk

end Sys2Proof.Machine

/-! PROOF. Predicates on the part that the work of the frame and control units keeps too (`PartKeeps`): one lemma
an operation, in the order of the model, up to what an access is shown to. -/

namespace Sys2Proof.Machine

/-- A predicate kept by the elementary changes of all the units: beside those of `TrunkKeeps`, contexts, held lists
that take no new name, a completion's slot where one is free, entries of 0 to 16 words formed or withdrawn, the
control unit's copies, a new layout with its fresh event ring, and the firmware's hand on the event ring. -/
structure PartKeeps (P : Chip → Prop) : Prop extends TrunkKeeps P where
  pins : ∀ {v c}, P c → P (c.withPins v)
  ctx : ∀ {e v c}, P c → P (c.putCtx e v)
  slots : ∀ {e l c}, (l.map (·.id)).Sublist ((c.held e).map (·.id)) → P c → P (c.putHeld e l)
  slot : ∀ {e i a w c}, (c.held e).length < Config.heldLimit → P c →
    P ((c.withPath { c.path with serial := c.path.serial + 1 }).putHeld e (c.held e ++ [newSlot c e i a w]))
  entry : ∀ {o p w c}, w.sized → P c → P (formEntry o p w c)
  withdraw : ∀ {f c}, P c → P (withdrawFrame f c)
  struck : ∀ {a c}, P c → P (c.withPath { c.path with
    queue := (c.path.queue.map (strikeEntry a)).filter fun e => !e.allStruck })
  ctl : ∀ {v c}, v.unit = c.ctl.unit → v.noticeMask = c.ctl.noticeMask → P c → P (c.withCtl v)
  noticeMask : ∀ {d c}, P c → P (noticeMaskWrite d c)
  relayout : ∀ {r c}, r.inRange → P c →
    P (resetEvents (c.withCtl { c.ctl with unit := r, unitCommitted := true }))
  consume : ∀ {d c}, P c → P (consume d c)
  overflow : ∀ {c}, P c → P (formOverflow c)
  written : ∀ {v l c}, P c → P (recordsWritten v l c)

/-! ### Facts about slots, verdicts and records that the bounds rest on -/

@[simp] theorem putSlot_ids (l : List Slot) (v : Slot) : (putSlot l v).map (·.id) = l.map (·.id) := by
  rw [putSlot, List.map_map]
  refine List.map_congr_left fun w _ => ?_
  simp only [Function.comp]
  split
  · next h => exact h.symm
  · rfl

@[simp] theorem fillWord_id (u : UnitRec) (e : Engine) (k : Nat) (d : Word) (v : Slot) :
    (fillWord u e k d v).id = v.id := by
  unfold fillWord
  split <;> rfl

@[simp] theorem fillWords_id (u : UnitRec) (e : Engine) (k : Nat) (ds : List Word) (v : Slot) :
    (fillWords u e k ds v).id = v.id := by
  induction ds generalizing k v with
  | nil => rfl
  | cons d ds ih => simp [fillWords, ih]

/-- A fetch that a frame wants has 1 to 11 words: the last header word is at most 10 (R38). -/
theorem Slot.wants_sized {u : UnitRec} {e : Engine} {v : Slot} {p : Purpose} {a n : Nat}
    (h : v.wants u e = some (p, a, n)) : 1 ≤ n ∧ n ≤ 16 := by
  have hl : v.lastWord u e ≤ 10 := by
    unfold Slot.lastWord
    split
    · decide
    · split <;> decide
  unfold Slot.wants at h
  split at h
  · exact nomatch h
  · split at h
    · cases h
      decide
    · split at h
      · next k hk =>
        have := List.mem_range.mp (List.mem_of_find?_eq_some hk)
        cases h
        omega
      · split at h
        · cases h
          decide
        · exact nomatch h

@[simp] theorem Verdict.words_length (v : Verdict) : v.words.length = 4 := by
  unfold Verdict.words
  split <;> rfl

/-- A validated commit that may take effect: a unit record's fields are in their ranges (R20). -/
def RecordVal.fits : RecordVal → Prop
  | .unit r => r.inRange
  | _ => True

theorem clampTo_le {lo hi n : Nat} (h : lo ≤ hi) : lo ≤ clampTo lo hi n ∧ clampTo lo hi n ≤ hi := by
  unfold clampTo
  omega

theorem unitRecOf_inRange (w : Nat → Nat) : (unitRecOf w).inRange := by
  have h := fun {lo hi} (hl : lo ≤ hi) n => clampTo_le (n := n) hl
  exact ⟨(h (by decide) _).1, (h (by decide) _).2, (h (by decide) _).2, (h (by decide) _).2, (h (by decide) _).2,
    (h (by decide) _).2, (h (by decide) _).1, (h (by decide) _).2, (h (by decide) _).1, (h (by decide) _).2⟩

theorem Chip.validate_fits {c : Chip} {id : RecordId} {v : RecordVal} (h : c.validate id = .ok v) : v.fits := by
  cases v with
  | unit r =>
    cases id with
    | unit =>
      simp only [Chip.validate] at h
      split_ifs at h
      cases h
      exact unitRecOf_inRange _
    | ring k =>
      simp only [Chip.validate] at h
      split_ifs at h
      exact nomatch h
    | printer p =>
      simp only [Chip.validate] at h
      split at h
      · exact nomatch h
      · split_ifs at h
        exact nomatch h
    | line l =>
      simp only [Chip.validate] at h
      cases hr : lineRecOf (c.recordWord (.line l)) <;> simp [hr] at h
    | reaction r =>
      simp only [Chip.validate] at h
      cases hr : reactionRecOf (c.recordWord (.reaction r)) <;> simp [hr] at h
    | _ => exact nomatch h
  | _ => trivial

/-- No pending commit is a unit record's: those have none (R22). -/
theorem ControlUnit.pendingCommits_fits {k : ControlUnit} {v : RecordVal} (h : v ∈ k.pendingCommits) : v.fits := by
  cases v with
  | unit r => simp [ControlUnit.pendingCommits, List.mem_filterMap] at h
  | _ => trivial

section

variable {P : Chip → Prop} {c : Chip} {g : Give} {e : Engine} {n : Nat} (hP : PartKeeps P)
include hP

/-! ### Contexts, evaluation and fetched data (R37, R38, R43) -/

theorem readPart_keeps {i w : Nat} {d : Word} (h : P c) : P (readPart e i w d c) :=
  ite_keeps (hP.ctx h) (ite_keeps (hP.ctx h) h)

theorem captureWrite_keeps {region : Region} {a : Nat} {be : BitVec 2} {d : Word} (h : P c) :
    P (captureWrite e region a be d c) := by
  unfold captureWrite
  dsimp only
  split
  · exact h
  · exact hP.ctx h

theorem dropContext_keeps (h : P c) : P (dropContext e n c) := ite_keeps (hP.ctx h) h

theorem startEvaluation_keeps (h : P c) : P (startEvaluation e c) := by
  unfold startEvaluation
  split
  · exact h
  · split
    · exact h
    · split
      · exact h
      · next hw => exact hP.entry (Slot.wants_sized hw) (hP.slots (by simp) h)

theorem fetched_keeps {f : Slot → Slot} (hf : ∀ v, (f v).id = v.id) (h : P c) : P (fetched e n f c) := by
  refine startEvaluation_keeps hP (hP.slots ?_ h)
  rw [List.map_map]
  refine (List.map_congr_left fun v _ => ?_) ▸ List.Sublist.refl _
  simp only [Function.comp]
  split
  · exact (hf v).symm
  · rfl

theorem frameFetched_keeps {p : Purpose} {ws : List Word} (h : P c) : P (frameFetched p ws c) := by
  unfold frameFetched
  split
  · exact fetched_keeps hP (fun _ => rfl) h
  · exact fetched_keeps hP (fillWords_id _ _ _ _) h
  · exact fetched_keeps hP (fun _ => rfl) h
  · exact h

/-! ### Cancellation, completions, stage two and STOP (R29, R39 to R48) -/

theorem dropSlot_keeps (h : P c) : P (dropSlot e n c) := hP.slots (List.filter_sublist.map _) h

theorem cancelSlot_keeps {v : Slot} (h : P c) : P (cancelSlot e v c) :=
  startEvaluation_keeps hP (hP.event (dropSlot_keeps hP (hP.withdraw h)))

theorem cancelAt_keeps {region : Region} {a : Nat} (h : P c) : P (cancelAt region a c) := by
  unfold cancelAt
  split
  · exact List.foldlRecOn _ _ h fun _ hb _ _ => cancelSlot_keeps hP hb
  · exact h

theorem completionStageOne_keeps {w : Word} (h : P c) : P (completionStageOne e w c) := by
  unfold completionStageOne
  split
  · exact stageOne_keeps hP.toTrunkKeeps (top_keeps hP.toTrunkKeeps) h
  · exact h

theorem takeCompletion_keeps {i a : Nat} {w : Word} (hl : (c.held e).length < Config.heldLimit) (h : P c) :
    P (takeCompletion e i a w c) := by
  have hs := hP.slot (i := i) (a := a) (w := w) hl h
  exact startEvaluation_keeps hP (completionStageOne_keeps hP (dropContext_keeps hP (by cases e <;> exact hs)))

theorem formDeposit_keeps {o : Owner} {p : Purpose} {a : Nat} {ws : List Word} (hw : 1 ≤ ws.length ∧ ws.length ≤ 16)
    (h : P c) : P (formDeposit o p a ws c) :=
  hP.entry (by simpa [Work.sized] using hw) h

theorem releaseFrame_keeps {v : Slot} {r : Verdict} (h : P c) : P (releaseFrame e v r c) :=
  formDeposit_keeps hP (by simp) (formDeposit_keeps hP (by simp) (hP.slots (by simp) h))

theorem stageTwo_keeps (h : P c) : P (stageTwo e c) := by
  unfold stageTwo
  split
  · exact h
  · exact ite_keeps (startEvaluation_keeps hP (releaseFrame_keeps hP
      (evaluate_keeps hP.toTrunkKeeps (top_keeps hP.toTrunkKeeps) h))) h

theorem stopFrame_keeps {v : Slot} (h : P c) : P (stopFrame e c v) :=
  ite_keeps (releaseFrame_keeps hP (hP.withdraw h)) h

theorem stopFrames_keeps (h : P c) : P (stopFrames c) :=
  List.foldlRecOn _ _ (List.foldlRecOn _ _ h fun _ hb _ _ => stopFrame_keeps hP hb)
    fun _ hb _ _ => stopFrame_keeps hP hb

theorem guardRecord_keeps {x : Access} (h : P c) : P (guardRecord x c) := by
  unfold guardRecord
  split
  · exact ite_keeps (hP.event h) h
  · exact h

/-! ### Records (R18 to R23) -/

theorem applyUnitRec_keeps (hg : GiveKeeps P g) {r : UnitRec} (hr : r.inRange) (h : P c) :
    P (applyUnitRec g r c) :=
  stationsUnitCommit_keeps hP.toWorkKeeps hg (printersUnitCommit_keeps hP.toWorkKeeps hg
    (trunksUnitCommit_keeps hP.toTrunkKeeps hg (hP.relayout hr h)))

theorem applyRingRec_keeps {r : RingRec} (h : P c) : P (applyRingRec n r c) :=
  ite_keeps (hP.ctx (hP.ctl rfl rfl h)) (ite_keeps (hP.ctx (hP.ctl rfl rfl h)) (hP.ctx (hP.ctl rfl rfl h)))

theorem takeEffect_keeps (hg : GiveKeeps P g) {v : RecordVal} (hv : v.fits) (h : P c) : P (takeEffect g v c) := by
  cases v with
  | unit r => exact applyUnitRec_keeps hP hg hv h
  | ring k r => exact applyRingRec_keeps hP h
  | health r => exact hP.ctl rfl rfl h
  | print r => exact hP.ctl rfl rfl h
  | aging r => exact hP.ctl rfl rfl h
  | line l r => exact applyLineRec_keeps hP.toWorkKeeps h
  | timer k r => exact applyTimerRec_keeps hP.toWorkKeeps h
  | printer p r => exact applyPrinterRec_keeps hP.toWorkKeeps (serve_keeps hP.toWorkKeeps hg) hg h
  | reaction k r => exact hP.rct h

theorem proceed_keeps (hg : GiveKeeps P g) {v : RecordVal} (hv : v.fits) (h : P c) : P (proceed g v c) := by
  unfold proceed
  split
  · exact ite_keeps (hP.ctl rfl rfl h) (takeEffect_keeps hP hg hv h)
  · exact ite_keeps
      (applyAwaiting_keeps hP.toWorkKeeps (serve_keeps hP.toWorkKeeps hg) hg (hP.awaiting h))
      (takeEffect_keeps hP hg hv h)
  · exact takeEffect_keeps hP hg hv h

theorem setPending_keeps {id : RecordId} {v : Option RecordVal} (h : P c) : P (setPending id v c) := by
  cases id with
  | unit => exact h
  | ring k => exact h
  | _ => exact hP.ctl rfl rfl h

theorem commitRecord_keeps (hg : GiveKeeps P g) {id : RecordId} (h : P c) : P (commitRecord g id c) := by
  unfold commitRecord
  split
  · exact hP.event h
  · next hv => exact ite_keeps (setPending_keeps hP h) (proceed_keeps hP hg (Chip.validate_fits hv) h)

theorem commitDirect_keeps (hg : GiveKeeps P g) {id : RecordId} (h : P c) : P (commitDirect g id c).2 := by
  unfold commitDirect
  split
  · exact hP.event h
  · next hv => exact takeEffect_keeps hP hg (Chip.validate_fits hv) (setPending_keeps hP h)

theorem gateWrite_keeps (hg : GiveKeeps P g) {d : Word} (h : P c) : P (gateWrite g d c) :=
  ite_keeps
    (List.foldlRecOn _ _ (hP.ctl rfl rfl (hP.ctl rfl rfl h))
      fun _ hb _ hv => proceed_keeps hP hg (ControlUnit.pendingCommits_fits hv) hb)
    (hP.ctl rfl rfl h)

theorem applyAwaitingAll_keeps (hg : GiveKeeps P g) (h : P c) : P (applyAwaitingAll g c) := by
  unfold applyAwaitingAll
  extract_lets v d
  have hd : P d := by
    unfold d
    split
    · exact hP.ctl rfl rfl h
    · exact h
  refine List.foldlRecOn _ _ hd fun b hb p _ => ?_
  split
  · exact applyPrinterRec_keeps hP.toWorkKeeps (serve_keeps hP.toWorkKeeps hg) hg (hP.awaiting hb)
  · exact hb

theorem recordWrite_keeps (hg : GiveKeeps P g) {id : RecordId} {d : Word} (h : P c) :
    P (recordWrite g id n d c) :=
  ite_keeps (commitRecord_keeps hP hg (hP.ctl rfl rfl h)) (hP.ctl rfl rfl h)

theorem consumerWrite_keeps {d : Word} (h : P c) : P (consumerWrite d c) :=
  ite_keeps (hP.overflow (hP.consume h)) (hP.consume h)

/-! ### Replies and LOAD (R26, R27) -/

theorem PartKeeps.replyAfter {tag : Octet} {l : List Nat} {d : Detail} (h : P c) :
    P (replyAfter tag l d n c) :=
  formDeposit_keeps hP (by simp) (hP.ctl rfl rfl h)

theorem answered_keeps {tag : Octet} {f : Chip → Answer} (h : P (f c).2) : P (answered tag f c) :=
  hP.replyAfter h

theorem formLoads_keeps {fuel off : Nat} (h : P c) : P (formLoads fuel off n c) := by
  induction fuel generalizing off n c with
  | zero => exact h
  | succ fuel ih =>
    unfold formLoads
    split
    · exact h
    · next hn => exact ih (hP.entry (by simp only [Work.sized]; omega) h)

theorem loadWord_keeps (hg : GiveKeeps P g) {off : Nat} {d : Word} {t : LoadTally} (h : P c) :
    P (loadWord g off d t c).2 := by
  unfold loadWord
  split
  · exact gateWrite_keeps hP hg h
  · split
    · exact hP.noticeMask h
    · split
      · exact hP.ctl rfl rfl h
      · split
        · exact h
        · next id i _ =>
          extract_lets k r u m
          have hk : P k := hP.ctl rfl rfl h
          have hr : P r.2 := commitDirect_keeps hP hg hk
          split
          · split
            · exact formLoads_keeps hP hr
            · exact hr
          · exact hk

theorem loadRun_keeps (hg : GiveKeeps P g) {off : Nat} {ds : List Word} {t : LoadTally} (h : P c) :
    P (loadRun g off ds t c).2 := by
  induction ds generalizing off t c with
  | nil => exact h
  | cons d ds ih => exact ih (loadWord_keeps hP hg h)

theorem loadFetched_keeps (hg : GiveKeeps P g) {off : Nat} {ds : List Word} (h : P c) :
    P (loadFetched g off ds c) := by
  unfold loadFetched
  split
  · dsimp only
    split
    · exact hP.replyAfter (hP.ctl rfl rfl (loadRun_keeps hP hg h))
    · exact hP.ctl rfl rfl (loadRun_keeps hP hg h)
  · exact h

/-! ### The commands (R28 to R32, R62) -/

theorem startWork_keeps (hg : GiveKeeps P g) (h : P c) : P (startWork g c).2 := by
  unfold startWork
  split
  · exact h
  · dsimp only
    refine List.foldlRecOn _ _ ?_ fun _ hb _ _ => serve_keeps hP.toWorkKeeps hg hb
    exact sampleLines_keeps hP.toWorkKeeps (redriveLines_keeps hP.toWorkKeeps (hP.ctl rfl rfl h))

theorem stopWork_keeps (hg : GiveKeeps P g) (h : P c) : P (stopWork g c).2 :=
  redriveLines_keeps hP.toWorkKeeps (applyAwaitingAll_keeps hP hg (stopFrames_keeps hP (hP.ctl rfl rfl h)))

theorem restartStation_keeps (h : P c) : P (restartStation c n) := by
  unfold restartStation
  dsimp only
  split
  · exact hP.stn h
  · exact h
  · split <;> exact hP.stn h
  · split <;> exact hP.stn h

theorem restartWork_keeps (h : P c) : P (restartWork c).2 := by
  unfold restartWork
  refine redriveLines_keeps hP.toWorkKeeps (List.foldlRecOn _ _ (List.foldlRecOn _ _ (hP.prt (hP.hlth
    (List.foldlRecOn _ _ (hP.stn (List.foldlRecOn _ _ h ?_)) ?_))) ?_) ?_)
  · exact fun _ hb _ _ => restartStation_keeps hP hb
  · exact fun _ hb _ _ => hP.hlth hb
  · exact fun _ hb _ _ => hP.prt hb
  · exact fun _ hb _ _ => hP.rct hb

theorem statusWork_keeps (h : P c) : P (statusWork c).2 := formDeposit_keeps hP (by simp [statusWords]) h

theorem formInquiries_keeps {k : InqKind} {first a : Nat} (h : P c) : P (formInquiries k n first a c) := by
  induction n generalizing first a c with
  | zero => exact h
  | succ n ih => exact ih (hP.entry trivial h)

theorem inquireWork_keeps (h : P c) : P (inquireWork c).2.2 := by
  unfold inquireWork
  split
  · exact h
  · dsimp only
    split
    · exact h
    · exact formInquiries_keeps hP h

theorem takeStation_keeps {op : StationCommand} {tag : Octet} (h : P c) : P (takeStation op tag c) :=
  ite_keeps (answered_keeps hP (applyStation_keeps hP.toWorkKeeps h)) (hP.ctl rfl rfl h)

theorem applyWaiting_keeps (h : P c) : P (applyWaiting c) := by
  unfold applyWaiting
  split
  · exact ite_keeps h (answered_keeps hP (applyStation_keeps hP.toWorkKeeps h))
  · exact h

/-! ### Due steps and ticks (R102, R164) -/

theorem decayTickWork_keeps (hg : GiveKeeps P g) (h : P c) : P (decayTickWork g c) := by
  unfold decayTickWork
  extract_lets d f v k
  have hd : P d := List.foldlRecOn _ _ h fun _ hb _ _ => ite_keeps (decayTrunk_keeps hP.toTrunkKeeps hg hb) hb
  have hf : P f := List.foldlRecOn _ _ hd fun _ hb _ _ => decayStation_keeps hP.toWorkKeeps hb
  clear_value f
  have hk : P k := by
    unfold k
    split
    · exact hP.ctl rfl rfl hf
    · exact hf
  exact hP.hlth hk

theorem runSecond_keeps (hg : GiveKeeps P g) (h : P c) : P (runSecond g c) :=
  ite_keeps (secondBoundaryWork_keeps hP.toWorkKeeps hg h) h

theorem runDecay_keeps (hg : GiveKeeps P g) (h : P c) : P (runDecay g c) :=
  ite_keeps (decayTickWork_keeps hP hg h) h

theorem runHold_keeps (hg : GiveKeeps P g) (h : P c) : P (runHold g c n) :=
  ite_keeps (moveTrunk_keeps hP.toTrunkKeeps hg h) h

theorem runTrial_keeps (hg : GiveKeeps P g) (h : P c) : P (runTrial g c n) :=
  ite_keeps (moveTrunk_keeps hP.toTrunkKeeps hg h) h

theorem runClear_keeps (h : P c) : P (runClear c n) := ite_keeps (hP.event (hP.hlth h)) h

theorem runIdle_keeps (hg : GiveKeeps P g) (h : P c) : P (runIdle g c n) :=
  ite_keeps (idleExpiry_keeps hP.toWorkKeeps hg h) h

theorem runGrace_keeps (hg : GiveKeeps P g) (h : P c) : P (runGrace g c n) :=
  ite_keeps (graceExpiry_keeps hP.toWorkKeeps hg h) h

theorem runTimer_keeps (hg : GiveKeeps P g) (h : P c) : P (runTimer g c n) :=
  ite_keeps (timerExpiry_keeps hP.toWorkKeeps hg h) h

theorem takeDue_keeps (hg : GiveKeeps P g) (h : P c) : P (takeDue g c) := by
  unfold takeDue
  refine List.foldlRecOn _ _ (List.foldlRecOn _ _ (List.foldlRecOn _ _ (List.foldlRecOn _ _ (List.foldlRecOn _ _
    (List.foldlRecOn _ _ (runDecay_keeps hP hg (runSecond_keeps hP hg h)) ?_) ?_) ?_) ?_) ?_) ?_
  · exact fun _ hb _ _ => runHold_keeps hP hg hb
  · exact fun _ hb _ _ => runTrial_keeps hP hg hb
  · exact fun _ hb _ _ => runClear_keeps hP hb
  · exact fun _ hb _ _ => runIdle_keeps hP hg hb
  · exact fun _ hb _ _ => runGrace_keeps hP hg hb
  · exact fun _ hb _ _ => runTimer_keeps hP hg hb

theorem tickWork_keeps (hg : GiveKeeps P g) {v : Octet} (h : P c) : P (tickWork g v c) := by
  refine ite_keeps (List.foldlRecOn _ _ (List.foldlRecOn _ _ (List.foldlRecOn _ _ (List.foldlRecOn _ _
    (hP.hlth (hP.stn (hP.pins (takeDue_keeps hP hg h)))) ?_) ?_) ?_) ?_) (hP.pins h)
  · exact fun _ hb _ _ => hP.hlth hb
  · exact fun _ hb _ _ => hP.prt hb
  · exact fun _ hb _ _ => ite_keeps (hP.rct hb) hb
  · exact fun _ hb _ _ => sampleLine_keeps hP.toWorkKeeps hg hb

/-! ### The command word and the control area (R16, R26) -/

theorem performCommand_keeps (hg : GiveKeeps P g) {k : CommandCode} {tag : Octet} (h : P c) :
    P (performCommand g k tag c) := by
  have hw := hP.toWorkKeeps
  have ht := hP.toTrunkKeeps
  cases k with
  | load => exact formLoads_keeps hP (hP.ctl rfl rfl (hP.ctl rfl rfl h))
  | start => exact answered_keeps hP (startWork_keeps hP hg h)
  | stop => exact answered_keeps hP (stopWork_keeps hP hg (takeDue_keeps hP hg h))
  | restart => exact answered_keeps hP (restartWork_keeps hP h)
  | status => exact answered_keeps hP (statusWork_keeps hP h)
  | inquire => exact hP.replyAfter (inquireWork_keeps hP h)
  | setStation => exact takeStation_keeps hP h
  | clearStation => exact takeStation_keeps hP h
  | freeProxy => exact takeStation_keeps hP h
  | quarantine => exact answered_keeps hP (quarantineCommand_keeps hw hg h)
  | releaseStation => exact answered_keeps hP (releaseStationCommand_keeps hw h)
  | isolateTrunk => exact answered_keeps hP (isolateTrunk_keeps ht hg h)
  | releaseTrunk => exact answered_keeps hP (releaseTrunk_keeps ht hg h)
  | cancelJob => exact answered_keeps hP (cancelJob_keeps hw hg h)
  | holdPrinter => exact answered_keeps hP (holdPrinter_keeps hw hg h)
  | resumePrinter => exact answered_keeps hP (resumePrinter_keeps hw hg h)
  | startTimer => exact answered_keeps hP (startTimer_keeps hw hg h)
  | stopTimer => exact answered_keeps hP (stopTimer_keeps hw h)
  | setLine => exact answered_keeps hP (setLine_keeps hw h)

theorem takeCommand_keeps (hg : GiveKeeps P g) {d : Word} (h : P c) : P (takeCommand g d c) := by
  unfold takeCommand
  dsimp only
  split
  · exact hP.event h
  · split
    · exact hP.replyAfter h
    · exact ite_keeps (performCommand_keeps hP hg h) (hP.replyAfter h)

theorem controlWrite_keeps (hg : GiveKeeps P g) {off : Nat} {d : Word} (h : P c) : P (controlWrite g off d c) := by
  unfold controlWrite
  split_ifs
  · exact takeCommand_keeps hP hg h
  · exact hP.ctl rfl rfl h
  · exact consumerWrite_keeps hP h
  · exact gateWrite_keeps hP hg h
  · exact hP.noticeMask h
  · exact hP.ctl rfl rfl h
  · split
    · exact recordWrite_keeps hP hg h
    · exact h

/-! ### What the units do with deposits, fetches and accesses (R3, R9, R10) -/

theorem depositDone_keeps {p : Purpose} (h : P c) : P (depositDone p c) := by
  unfold depositDone
  split
  · exact dropSlot_keeps hP h
  · exact hP.ctl rfl rfl h
  · exact hP.written h
  · exact h

theorem fetchDone_keeps {p : Purpose} {ws : List Word} (h : P c) : P (fetchDone p ws c) := by
  unfold fetchDone
  split
  · exact loadFetched_keeps hP (top_keeps hP.toTrunkKeeps) h
  · exact frameFetched_keeps hP h

theorem PartKeeps.strikeAt {a : Nat} (h : P c) : P (strikeAt a c) := by
  refine List.foldlRecOn _ _ (hP.struck h) fun b hb x _ => ?_
  unfold depositStruck
  split
  · exact hP.ctl rfl rfl hb
  · exact hP.written hb
  · exact hb

theorem frameShown_keeps {x : Access} (h : P c) : P (frameShown x c) := by
  unfold frameShown
  dsimp only
  split
  · exact captureWrite_keeps hP (cancelAt_keeps hP h)
  · exact cancelAt_keeps hP h

theorem controlShown_keeps {x : Access} {off : Nat} (h : P c) : P (controlShown x off c) :=
  ite_keeps (hP.event h) (ite_keeps (controlWrite_keeps hP (top_keeps hP.toTrunkKeeps) h)
    (ite_keeps (hP.event h) h))

/-- A completion taken in RUN needs a free slot; nothing else that an access is shown to does. -/
theorem unitsShown_keeps {x : Access}
    (hs : ∀ e i, x.completion = some (e, i) → c.ctl.mode = .run → (c.held e).length < Config.heldLimit)
    (h : P c) : P (unitsShown x c) := by
  unfold unitsShown
  split
  · exact controlShown_keeps hP h
  · unfold completionShown
    split
    · exact h
    · next hx =>
      split
      · next hr => exact takeCompletion_keeps hP (hs _ _ hx hr) h
      · exact dropContext_keeps hP h
  · exact ite_keeps (guardRecord_keeps hP h) h
  · exact printerRingWrite_keeps hP.toWorkKeeps (top_keeps hP.toTrunkKeeps) h
  · exact h

theorem readShown_keeps {x : Access} {d : Word} (h : P c) : P (readShown x d c) := by
  unfold readShown
  split
  · exact ite_keeps (readPart_keeps hP h) h
  · exact h

/-- A write that reaches memory, where a completion finds its slot. -/
theorem writeAccess_keeps {x : Access} {s : State}
    (hs : ∀ e i, x.completion = some (e, i) → s.chip.ctl.mode = .run →
      ((strikeAt x.addr (frameShown x s.chip)).held e).length < Config.heldLimit)
    (hm : (frameShown x s.chip).ctl.mode = s.chip.ctl.mode)
    (h : P s.chip) : P (writeAccess x s).chip := by
  unfold writeAccess
  split
  · exact h
  · refine unitsShown_keeps hP (fun e i hx hr => hs e i hx ?_) (hP.strikeAt (frameShown_keeps hP h))
    rw [← hm]
    simpa using hr

end

end Sys2Proof.Machine

/-! PROOF. The part's invariant: what each elementary change makes of its seven clauses, then the writes that may
take a slot, then every step. -/

namespace Sys2Proof.Machine

/-! ### Contexts and held lists: what an update sets and leaves -/

theorem Chip.held_of_frm {c d : Chip} (h : d.frm = c.frm) (e : Engine) : d.held e = c.held e := by
  simp only [Chip.held, h]

theorem Chip.ctx_of_frm {c d : Chip} (h : d.frm = c.frm) (e : Engine) : d.ctx e = c.ctx e := by
  simp only [Chip.ctx, h]

section

variable (e : Engine) (l : List Slot) (v : Ctx) (c : Chip)

@[simp] theorem putHeld_resetAsserted : (c.putHeld e l).resetAsserted = c.resetAsserted := by cases e <;> rfl
@[simp] theorem putHeld_cab : (c.putHeld e l).cab = c.cab := by cases e <;> rfl
@[simp] theorem putHeld_pins : (c.putHeld e l).pins = c.pins := by cases e <;> rfl
@[simp] theorem putHeld_path : (c.putHeld e l).path = c.path := by cases e <;> rfl
@[simp] theorem putHeld_ctl : (c.putHeld e l).ctl = c.ctl := by cases e <;> rfl
@[simp] theorem putHeld_stn : (c.putHeld e l).stn = c.stn := by cases e <;> rfl
@[simp] theorem putHeld_hlth : (c.putHeld e l).hlth = c.hlth := by cases e <;> rfl
@[simp] theorem putHeld_prt : (c.putHeld e l).prt = c.prt := by cases e <;> rfl
@[simp] theorem putHeld_rct : (c.putHeld e l).rct = c.rct := by cases e <;> rfl
@[simp] theorem putHeld_evt : (c.putHeld e l).evt = c.evt := by cases e <;> rfl
@[simp] theorem putHeld_ctx (r : Engine) : (c.putHeld e l).ctx r = c.ctx r := by cases e <;> cases r <;> rfl
@[simp] theorem putHeld_held (r : Engine) : (c.putHeld e l).held r = if r = e then l else c.held r := by
  cases e <;> cases r <;> rfl

@[simp] theorem putCtx_resetAsserted : (c.putCtx e v).resetAsserted = c.resetAsserted := by cases e <;> rfl
@[simp] theorem putCtx_cab : (c.putCtx e v).cab = c.cab := by cases e <;> rfl
@[simp] theorem putCtx_pins : (c.putCtx e v).pins = c.pins := by cases e <;> rfl
@[simp] theorem putCtx_path : (c.putCtx e v).path = c.path := by cases e <;> rfl
@[simp] theorem putCtx_ctl : (c.putCtx e v).ctl = c.ctl := by cases e <;> rfl
@[simp] theorem putCtx_stn : (c.putCtx e v).stn = c.stn := by cases e <;> rfl
@[simp] theorem putCtx_hlth : (c.putCtx e v).hlth = c.hlth := by cases e <;> rfl
@[simp] theorem putCtx_prt : (c.putCtx e v).prt = c.prt := by cases e <;> rfl
@[simp] theorem putCtx_rct : (c.putCtx e v).rct = c.rct := by cases e <;> rfl
@[simp] theorem putCtx_evt : (c.putCtx e v).evt = c.evt := by cases e <;> rfl
@[simp] theorem putCtx_held (r : Engine) : (c.putCtx e v).held r = c.held r := by cases e <;> cases r <;> rfl
@[simp] theorem putCtx_ctx (r : Engine) : (c.putCtx e v).ctx r = if r = e then v else c.ctx r := by
  cases e <;> cases r <;> rfl

end

/-- Parts that agree unit by unit are one. -/
theorem Chip.eq_of_units {c d : Chip} (h1 : c.resetAsserted = d.resetAsserted) (h2 : c.cab = d.cab)
    (h3 : c.pins = d.pins) (h4 : c.path = d.path) (h5 : c.ctl = d.ctl) (h6 : c.frm = d.frm)
    (h7 : c.stn = d.stn) (h8 : c.hlth = d.hlth) (h9 : c.prt = d.prt) (h10 : c.rct = d.rct)
    (h11 : c.evt = d.evt) : c = d := by
  cases c
  cases d
  simp_all

/-! ### What the units wait to add -/

theorem Chip.waiting_of_path {c d : Chip} (h : d.path = c.path) (o : Owner) : d.waiting o = c.waiting o := by
  simp only [Chip.waiting, h]

theorem putWaiting_waiting_of_ne {o r : Owner} (h : r ≠ o) (l : List Entry) (c : Chip) :
    (c.putWaiting o l).waiting r = c.waiting r := by
  revert h
  cases o <;> cases r <;> simp [Chip.putWaiting, Chip.waiting, Chip.withPath]

@[simp] theorem putWaiting_bus (o : Owner) (l : List Entry) (c : Chip) :
    (c.putWaiting o l).path.bus = c.path.bus := by cases o <;> rfl

@[simp] theorem putWaiting_asking (o : Owner) (l : List Entry) (c : Chip) :
    (c.putWaiting o l).path.asking = c.path.asking := by cases o <;> rfl

@[simp] theorem putWaiting_serial (o : Owner) (l : List Entry) (c : Chip) :
    (c.putWaiting o l).path.serial = c.path.serial := by cases o <;> rfl

@[simp] theorem offer_serial (e : Entry) (c : Chip) : (offer e c).path.serial = c.path.serial := by
  rcases offer_cases e c with ⟨_, _, _, h⟩ | h
  · rw [h]
    rfl
  · simp [h]

/-- Every record that INQUIRE shows has four words (R32). -/
@[simp] theorem inquiryRecord_length (c : Chip) (k : InqKind) (i : Nat) : (inquiryRecord c k i).length = 4 := by
  cases k with
  | stations => rfl
  | proxies =>
    simp only [inquiryRecord, proxiesRecord]
    split <;> rfl
  | trunks => rfl
  | printers =>
    simp only [inquiryRecord, printersRecord]
    split <;> rfl
  | jobs =>
    simp only [inquiryRecord, jobsRecord]
    split <;> rfl
  | timers => rfl

theorem takenEntry_sized {c : Chip} {e : Entry} (h : e.work.sized) : (takenEntry c e).work.sized := by
  unfold takenEntry
  split
  · simp [Work.sized]
  · exact h

@[simp] theorem strikeWords_length (x a : Nat) (ws : List (Word × Bool)) :
    (strikeWords x a ws).length = ws.length := by
  induction ws generalizing a with
  | nil => rfl
  | cons w ws ih => simp [strikeWords, ih]

theorem strikeEntry_sized {x : Nat} {e : Entry} (h : e.work.sized) : (strikeEntry x e).work.sized := by
  unfold strikeEntry
  split
  · next hw =>
    rw [hw] at h
    simpa [Work.sized] using h
  · exact h

/-! ### The invariant under changes of one unit -/

/-- The invariant speaks of the queue and the waiting lists, NOTICE, the held lists and the unit record only. -/
theorem Chip.sound.congr {c d : Chip} (h : c.sound) (hp : d.path = c.path) (hf : ∀ e, d.held e = c.held e)
    (hn : d.evt.notice = c.evt.notice) (hu : d.evt.unread = c.evt.unread)
    (hm : d.ctl.noticeMask = c.ctl.noticeMask) (hr : d.ctl.unit = c.ctl.unit) : d.sound := by
  obtain ⟨h1, h2, h3, h4, ⟨h5, h5'⟩, h6, h7⟩ := h
  refine ⟨?_, ?_, fun e => ?_, fun e => ?_, ⟨?_, fun o => ?_⟩, ?_, ?_⟩
  · rwa [Chip.queueOk, hp]
  · rwa [Chip.noticeOk, hn, hu, hm]
  · rw [hf]
    exact h3 e
  · rw [hf, hp]
    exact h4 e
  · rwa [hp]
  · rw [Chip.waiting_of_path hp]
    exact h5' o
  · rwa [Chip.busOk, hp]
  · rwa [hr]

theorem Chip.sound.names {c : Chip} (h : c.sound) : c.namesOk :=
  let ⟨_, _, _, hn, _⟩ := h
  hn

theorem Chip.sound.runs {c : Chip} (h : c.sound) : c.runsOk :=
  let ⟨_, _, _, _, hr, _⟩ := h
  hr

theorem Chip.sound.bus {c : Chip} (h : c.sound) : c.busOk :=
  let ⟨_, _, _, _, _, hb, _⟩ := h
  hb

/-- A new state of the path unit that keeps its own clauses, and forgets no name. -/
theorem Chip.sound.withPath {c : Chip} {v : PathUnit} (h : c.sound) (hq : (c.withPath v).queueOk)
    (hr : (c.withPath v).runsOk) (hb : (c.withPath v).busOk) (hs : c.path.serial ≤ v.serial) :
    (c.withPath v).sound := by
  obtain ⟨_, h2, h3, h4, _, _, h7⟩ := h
  exact ⟨hq, h2, h3, fun e => ⟨(h4 e).1, fun w hw => Nat.lt_of_lt_of_le ((h4 e).2 w hw) hs⟩, hr, hb, h7⟩

/-- A held list that takes no new name keeps the invariant. -/
theorem putHeld_sound {c : Chip} {e : Engine} {l : List Slot}
    (hl : (l.map (·.id)).Sublist ((c.held e).map (·.id))) (h : c.sound) : (c.putHeld e l).sound := by
  obtain ⟨h1, h2, h3, h4, ⟨h5, h5'⟩, h6, h7⟩ := h
  refine ⟨by simpa [Chip.queueOk] using h1, by simpa [Chip.noticeOk] using h2, fun r => ?_, fun r => ?_,
    ⟨by simpa using h5, fun o => ?_⟩, by simpa [Chip.busOk] using h6, by simpa using h7⟩
  · rw [putHeld_held]
    split
    · have := hl.length_le
      simp only [List.length_map] at this
      exact this.trans (h3 e)
    · exact h3 r
  · rw [putHeld_held, putHeld_path]
    split
    · refine ⟨hl.nodup (h4 e).1, fun w hw => ?_⟩
      obtain ⟨x, hx, hi⟩ := List.mem_map.mp (hl.subset (List.mem_map_of_mem (f := (·.id)) hw))
      exact hi ▸ (h4 e).2 x hx
    · exact h4 r
  · rw [Chip.waiting_of_path (putHeld_path e l c)]
    exact h5' o

/-- A slot taken under the next name, where the held list has room. -/
theorem newSlot_sound {c : Chip} {e : Engine} {v : Slot} (hv : v.id = c.path.serial)
    (hl : (c.held e).length < Config.heldLimit) (h : c.sound) :
    ((c.withPath { c.path with serial := c.path.serial + 1 }).putHeld e (c.held e ++ [v])).sound := by
  obtain ⟨h1, h2, h3, h4, ⟨h5, h5'⟩, h6, h7⟩ := h
  refine ⟨by simpa [Chip.queueOk] using h1, by simpa [Chip.noticeOk] using h2, fun r => ?_, fun r => ?_,
    ⟨by simpa using h5, fun o => ?_⟩, by simpa [Chip.busOk] using h6, by simpa using h7⟩
  · rw [putHeld_held]
    split
    · simpa using hl
    · exact h3 r
  · have hlt : ∀ w ∈ c.held r, w.id < c.path.serial + 1 := fun w hw => Nat.lt_succ_of_lt ((h4 r).2 w hw)
    rw [putHeld_held, putHeld_path]
    split
    · next hr =>
      subst hr
      refine ⟨?_, fun w hw => ?_⟩
      · rw [List.map_append, List.nodup_append]
        refine ⟨(h4 r).1, by simp, fun a ha b hb => ?_⟩
        obtain ⟨w, hw, rfl⟩ := List.mem_map.mp ha
        have := (h4 r).2 w hw
        simp only [List.map_cons, List.map_nil, List.mem_singleton] at hb
        omega
      · rcases List.mem_append.mp hw with hw | hw
        · exact hlt w hw
        · obtain rfl := List.mem_singleton.mp hw
          exact hv ▸ Nat.lt_succ_self _
    · exact ⟨(h4 r).1, hlt⟩
  · rw [Chip.waiting_of_path (putHeld_path _ _ _)]
    exact h5' o

/-! ### Entries, events and NOTICE -/

theorem runsOk_join {c : Chip} {e : Entry} (he : e.work.sized) (h : c.runsOk) : (joinQueue e c).runsOk := by
  refine ⟨fun x hx => ?_, fun o => by simpa using h.2 o⟩
  rw [joinQueue_queue, List.mem_append, List.mem_singleton] at hx
  rcases hx with hx | rfl
  · exact h.1 x hx
  · exact takenEntry_sized he

theorem runsOk_offer {c : Chip} {e : Entry} (he : e.work.sized) (h : c.runsOk) : (offer e c).runsOk := by
  rcases offer_cases e c with ⟨_, _, _, hj⟩ | hj
  · rw [hj]
    exact runsOk_join he h
  · rw [hj]
    refine ⟨by simpa using h.1, fun o => ?_⟩
    by_cases ho : o = e.owner
    · subst ho
      intro x hx
      rw [putWaiting_waiting, List.mem_append, List.mem_singleton] at hx
      rcases hx with hx | rfl
      · exact h.2 _ x hx
      · exact he
    · rw [putWaiting_waiting_of_ne ho]
      exact h.2 o

/-- An entry of 1 to 16 words offered keeps the invariant (R7, R8). -/
theorem formEntry_sound {c : Chip} {o : Owner} {p : Purpose} {w : Work} (hw : w.sized) (h : c.sound) :
    (formEntry o p w c).sound := by
  obtain ⟨h1, h2, h3, h4, h5, h6, h7⟩ := h
  obtain ⟨_, _, hb, ha⟩ := offer_grew { id := c.path.serial, owner := o, purpose := p, work := w }
    (c.withPath { c.path with serial := c.path.serial + 1 })
  refine ⟨formEntry_queueOk o p w h1, by simpa [Chip.noticeOk] using h2, fun e => ?_, fun e => ?_,
    runsOk_offer hw h5, fun hbus => ?_, by simpa using h7⟩
  · rw [Chip.held_of_frm (formEntry_frm c o p w)]
    exact h3 e
  · rw [Chip.held_of_frm (formEntry_frm c o p w)]
    have hs : (formEntry o p w c).path.serial = c.path.serial + 1 := offer_serial _ _
    exact ⟨(h4 e).1, fun v hv => hs ▸ Nat.lt_succ_of_lt ((h4 e).2 v hv)⟩
  · exact ha.trans (h6 (hb.symm.trans hbus))

/-- The event unit's indices, sequence and overflow set are outside the invariant. -/
theorem withEvt_sound {c : Chip} {v : EventUnit} (hn : v.notice = c.evt.notice) (hu : v.unread = c.evt.unread)
    (h : c.sound) : (c.withEvt v).sound :=
  h.congr rfl (fun e => Chip.held_of_frm (d := c.withEvt v) rfl e) hn hu rfl rfl

theorem formDeposit_sound {c : Chip} {o : Owner} {p : Purpose} {a : Nat} {ws : List Word} (h1 : 1 ≤ ws.length)
    (h2 : ws.length ≤ 16) (h : c.sound) : (formDeposit o p a ws c).sound :=
  formEntry_sound (by simpa [Work.sized] using ⟨h1, h2⟩) h

theorem formRecord_sound {c : Chip} {k : EvClass} {n : Nat} {b : List Word} (hb : b.length = 3) (h : c.sound) :
    (formRecord k n b c).sound :=
  withEvt_sound (by simp) (by simp) (formDeposit_sound (by simp) (by simp [hb]) h)

theorem formEvent_sound {c : Chip} {v : Event} (h : c.sound) : (formEvent v c).sound := by
  have hr := formRecord_sound (k := v.cls) (n := v.kind) (b := v.body) rfl h
  unfold formEvent
  split
  · exact formDeposit_sound (by simp) (by simp) hr
  · exact formDeposit_sound (by simp) (by simp) (formRecord_sound rfl hr)

theorem recordEvent_sound {c : Chip} {v : Event} (h : c.sound) : (recordEvent v c).sound := by
  unfold recordEvent
  split
  · exact h
  · split
    · exact withEvt_sound rfl rfl h
    · exact formEvent_sound h

theorem formOverflow_sound {c : Chip} (h : c.sound) : (formOverflow c).sound :=
  withEvt_sound rfl rfl (formEvent_sound h)

/-- Whatever is changed that bears on NOTICE, NOTICE re-driven is exact. -/
theorem redriveNotice_sound {c d : Chip} (h : c.sound) (hp : d.path = c.path) (hf : ∀ e, d.held e = c.held e)
    (hr : d.ctl.unit = c.ctl.unit) : (redriveNotice d).sound := by
  obtain ⟨h1, _, h3, h4, ⟨h5, h5'⟩, h6, h7⟩ := h
  refine ⟨by simpa [Chip.queueOk, hp] using h1, redriveNotice_noticeOk d, fun e => ?_, fun e => ?_,
    ⟨by simpa [hp] using h5, fun o => ?_⟩, by simpa [Chip.busOk, hp] using h6, by simpa [hr] using h7⟩
  · rw [Chip.held_of_frm (redriveNotice_frm d), hf]
    exact h3 e
  · rw [Chip.held_of_frm (redriveNotice_frm d), hf, redriveNotice_path, hp]
    exact h4 e
  · rw [Chip.waiting_of_path (redriveNotice_path d), Chip.waiting_of_path hp]
    exact h5' o

/-! ### The queue shortened, and a place given -/

/-- Entries taken from the queue and from what the units wait to add, others left of the size they had. -/
theorem shrunk_sound {c : Chip} {v : PathUnit} (h : c.sound) (hl : v.queue.length ≤ c.path.queue.length)
    (hq : ∀ e ∈ v.queue, e.work.sized) (hw : ∀ o, (c.withPath v).waiting o ⊆ c.waiting o)
    (hb : v.bus = none → v.asking = []) (hs : v.serial = c.path.serial) : (c.withPath v).sound :=
  h.withPath (hl.trans h.1) ⟨hq, fun o e he => h.runs.2 o e (hw o he)⟩ hb hs.ge

theorem withdrawFrame_sound {c : Chip} {f : Purpose → Bool} (h : c.sound) : (withdrawFrame f c).sound := by
  have ⟨hq, hw⟩ := h.runs
  refine shrunk_sound h (List.length_filter_le _ _) (fun e he => hq e (List.mem_of_mem_filter he)) (fun o => ?_)
    h.bus rfl
  cases o with
  | frame => exact List.filter_subset_self _
  | _ => exact List.Subset.refl _

theorem struck_sound {c : Chip} {a : Nat} (h : c.sound) : (c.withPath { c.path with
    queue := (c.path.queue.map (strikeEntry a)).filter fun e => !e.allStruck }).sound := by
  refine shrunk_sound h ((List.length_filter_le _ _).trans (by simp)) (fun e he => ?_) (fun o => ?_)
    h.bus rfl
  · obtain ⟨x, hx, rfl⟩ := List.mem_map.mp (List.mem_of_mem_filter he)
    exact strikeEntry_sized (h.runs.1 x hx)
  · cases o <;> exact List.Subset.refl _

theorem dropOldest_sound {c : Chip} (h : c.sound) : (dropOldest c).sound := by
  refine shrunk_sound h (by simp) (fun e he => h.runs.1 e (List.mem_of_mem_drop he)) (fun o => ?_)
    (fun hb => h.bus (Option.map_eq_none_iff.mp hb)) rfl
  cases o <;> exact List.Subset.refl _

/-- The entry a unit offers is one it waits to add. -/
theorem Chip.offered_mem {c : Chip} {o : Owner} {e : Entry} (h : c.offered o = some e) : e ∈ c.waiting o := by
  unfold Chip.offered at h
  split at h
  · exact nomatch h
  · next hw =>
    split at h
    · exact nomatch h
    · cases h
      rw [hw]
      exact List.mem_cons_self

/-- Everything a place given can do: nothing, or an entry some unit offers joins (R8). -/
theorem givePlace_cases (c : Chip) : givePlace c = c ∨
    ∃ o e, c.path.queue.length < Config.queueLimit ∧ c.offered o = some e ∧
      givePlace c = joinQueue e (c.putWaiting e.owner ((c.waiting e.owner).drop 1)) := by
  unfold givePlace
  split
  · next hp =>
    split
    · next e he =>
      obtain ⟨o, _, ho⟩ := List.exists_of_findSome?_eq_some he
      exact .inr ⟨o, e, by simpa [Chip.hasPlace] using hp, ho, rfl⟩
    · exact .inl rfl
  · exact .inl rfl

theorem givePlace_sound {c : Chip} (h : c.sound) : (givePlace c).sound := by
  have hq := givePlace_queueOk h.1
  rcases givePlace_cases c with hg | ⟨o, e, _, ho, hg⟩
  · rwa [hg]
  · have he : e.work.sized := h.runs.2 o e (Chip.offered_mem ho)
    have hr : (c.putWaiting e.owner ((c.waiting e.owner).drop 1)).runsOk := by
      refine ⟨by simpa using h.runs.1, fun r => ?_⟩
      by_cases hr : r = e.owner
      · subst hr
        rw [putWaiting_waiting]
        exact fun x hx => h.runs.2 _ x (List.mem_of_mem_drop hx)
      · rw [putWaiting_waiting_of_ne hr]
        exact h.runs.2 r
    rw [hg] at hq ⊢
    have hj := runsOk_join he hr
    generalize e.owner = r at *
    cases r <;> exact h.withPath (v := _) hq hj h.bus (Nat.le_refl _)

/-! ### A new layout (R23, R180) -/

theorem resetEvents_sound {c : Chip} (h : c.sound) : (resetEvents c).sound := by
  have hp : (c.withPath { c.path with
      waitEvent := []
      queue := c.path.queue.map fun e =>
        if e.owner = .event then { e with purpose := .uncounted } else e }).sound := by
    refine shrunk_sound h (by simp) (fun e he => ?_) (fun o => ?_) h.bus rfl
    · obtain ⟨x, hx, rfl⟩ := List.mem_map.mp he
      split <;> exact h.runs.1 x hx
    · cases o with
      | event => exact List.nil_subset _
      | _ => exact List.Subset.refl _
  unfold resetEvents
  extract_lets v d w f k
  have hf : f.sound := redriveNotice_sound hp rfl (fun _ => rfl) rfl
  have hk : k.sound := formDeposit_sound (by simp) (by simp) hf
  exact ite_keeps (formOverflow_sound hk) hk

theorem relayout_sound {c : Chip} {r : UnitRec} (hr : r.inRange) (h : c.sound) :
    (resetEvents (c.withCtl { c.ctl with unit := r, unitCommitted := true })).sound := by
  obtain ⟨h1, h2, h3, h4, h5, h6, _⟩ := h
  exact resetEvents_sound ⟨h1, h2, h3, h4, h5, h6, hr⟩

/-- Every elementary change of every unit keeps the part's invariant. -/
theorem partKeeps_sound : PartKeeps Chip.sound where
  stn h := h.congr rfl (fun _ => rfl) rfl rfl rfl rfl
  prt h := h.congr rfl (fun _ => rfl) rfl rfl rfl rfl
  rct h := h.congr rfl (fun _ => rfl) rfl rfl rfl rfl
  hlth h := h.congr rfl (fun _ => rfl) rfl rfl rfl rfl
  pins h := h.congr rfl (fun _ => rfl) rfl rfl rfl rfl
  printerRec h := h.congr rfl (fun _ => rfl) rfl rfl rfl rfl
  awaiting h := h.congr rfl (fun _ => rfl) rfl rfl rfl rfl
  ctl hu hm h := h.congr rfl (fun _ => rfl) rfl rfl hm hu
  ctx h := h.congr (by simp) (by simp) (by simp) (by simp) (by simp) (by simp)
  event h := recordEvent_sound h
  feed h1 h2 h := formDeposit_sound h1 h2 h
  slots hl h := putHeld_sound hl h
  slot hl h := newSlot_sound rfl hl h
  entry hw h := formEntry_sound hw h
  withdraw h := withdrawFrame_sound h
  struck h := struck_sound h
  noticeMask h := redriveNotice_sound h rfl (fun _ => rfl) rfl
  relayout hr h := relayout_sound hr h
  consume h := redriveNotice_sound h rfl (fun _ => rfl) rfl
  overflow h := formOverflow_sound h
  written h := redriveNotice_sound h rfl (fun _ => rfl) rfl

/-! ### What evaluation and cancellation make of a held list (R42, R46, R47) -/

/-- Slots of one name are one slot, where names are distinct. -/
theorem slot_eq_of_id {l : List Slot} (hn : (l.map (·.id)).Nodup) {v w : Slot} (hv : v ∈ l) (hw : w ∈ l)
    (h : w.id = v.id) : w = v :=
  List.inj_on_of_nodup_map hn hw hv h

theorem Chip.atEvaluation_mem {c : Chip} {e : Engine} {v : Slot} (h : c.atEvaluation e = some v) : v ∈ c.held e :=
  List.mem_of_find?_eq_some h

/-- A place at evaluation changes the queue, and in the engine's held list whether fetches are under way. -/
theorem startEvaluation_held {e : Engine} {c : Chip} (hn : ((c.held e).map (·.id)).Nodup) :
    ∃ f : Slot → Bool, (startEvaluation e c).held e = (c.held e).map fun w => { w with fetching := f w } := by
  have hid : c.held e = (c.held e).map fun w => { w with fetching := w.fetching } := by simp
  unfold startEvaluation
  split
  · exact ⟨Slot.fetching, hid⟩
  · next v hv =>
    split
    · exact ⟨Slot.fetching, hid⟩
    · split
      · exact ⟨Slot.fetching, hid⟩
      · refine ⟨fun w => if w.id = v.id then true else w.fetching, ?_⟩
        rw [Chip.held_of_frm (formFetch_frm _ _ _ _ _), putHeld_held, if_pos rfl, putSlot]
        refine List.map_congr_left fun w hw => ?_
        simp only
        split
        · next h => rw [slot_eq_of_id hn (Chip.atEvaluation_mem hv) hw h]
        · rfl

theorem startEvaluation_held_of_ne {e r : Engine} (h : r ≠ e) (c : Chip) :
    (startEvaluation e c).held r = c.held r := by
  unfold startEvaluation
  split
  · rfl
  · split
    · rfl
    · split
      · rfl
      · rw [Chip.held_of_frm (formFetch_frm _ _ _ _ _), putHeld_held, if_neg h]

@[simp] theorem startEvaluation_ctx (e r : Engine) (c : Chip) : (startEvaluation e c).ctx r = c.ctx r := by
  unfold startEvaluation
  split
  · rfl
  · split
    · rfl
    · split
      · rfl
      · rw [Chip.ctx_of_frm (formFetch_frm _ _ _ _ _), putHeld_ctx]

/-- It changes nothing but the queue's side and the held list. -/
theorem startEvaluation_frame (e : Engine) (c : Chip) :
    startEvaluation e c = { c with path := (startEvaluation e c).path, frm := (startEvaluation e c).frm } := by
  unfold startEvaluation
  split
  · rfl
  · split
    · rfl
    · split
      · rfl
      · next p a n _ =>
        apply Chip.eq_of_units <;> simp

theorem startEvaluation_ids {e : Engine} {c : Chip} (hn : ((c.held e).map (·.id)).Nodup) :
    ((startEvaluation e c).held e).map (·.id) = (c.held e).map (·.id) := by
  obtain ⟨f, hf⟩ := startEvaluation_held hn
  rw [hf, List.map_map]
  rfl

/-- A cancellation withdraws entries and records an event beside what it makes of the held list. -/
theorem cancelSlot_frame (e : Engine) (v : Slot) (c : Chip) :
    cancelSlot e v c = { c with
      path := (cancelSlot e v c).path, frm := (cancelSlot e v c).frm, evt := (cancelSlot e v c).evt } := by
  unfold cancelSlot
  rw [startEvaluation_frame]
  apply Chip.eq_of_units <;> simp [dropSlot]

/-- A slot's name and place in memory: what no fetch changes. -/
def Slot.place (v : Slot) : Nat × Nat := (v.id, v.word0)

/-- A cancellation takes the slots of one name from the held list and leaves the others in their order. -/
theorem cancelSlot_places {e : Engine} {c : Chip} (v : Slot) (hn : ((c.held e).map (·.id)).Nodup) :
    ((cancelSlot e v c).held e).map Slot.place =
      ((c.held e).map Slot.place).filter fun p => decide (p.1 ≠ v.id) := by
  have hd : (recordEvent (evVerdictDiscarded v.index e v.phase)
      (dropSlot e v.id (withdrawFrame (Purpose.ofSlot e v.id) c))).held e =
      (c.held e).filter fun w => decide (w.id ≠ v.id) := by
    rw [Chip.held_of_frm (recordEvent_frm _ _), dropSlot, putHeld_held, if_pos rfl]
    rfl
  obtain ⟨f, hf⟩ := startEvaluation_held (e := e) (c := recordEvent (evVerdictDiscarded v.index e v.phase)
    (dropSlot e v.id (withdrawFrame (Purpose.ofSlot e v.id) c)))
    (by rw [hd]; exact hn.sublist (List.filter_sublist.map _))
  rw [cancelSlot, hf, hd, List.map_map, List.filter_map]
  rfl

theorem ids_of_places (l : List Slot) : l.map (·.id) = (l.map Slot.place).map Prod.fst := by
  rw [List.map_map]
  rfl

/-- The cancellations of several slots: none of their names is left, and nothing else is gone. -/
theorem foldl_cancelSlot_places {e : Engine} (l : List Slot) {c : Chip} (hn : ((c.held e).map (·.id)).Nodup) :
    ((l.foldl (fun c v => cancelSlot e v c) c).held e).map Slot.place =
      ((c.held e).map Slot.place).filter fun p => decide (p.1 ∉ l.map (·.id)) := by
  induction l generalizing c with
  | nil => simp
  | cons v l ih =>
    have hp := cancelSlot_places v hn
    have hs : (((cancelSlot e v c).held e).map (·.id)).Nodup := by
      rw [ids_of_places, hp]
      rw [ids_of_places] at hn
      exact hn.sublist (List.filter_sublist.map _)
    rw [List.foldl_cons, ih hs, hp, List.filter_filter]
    refine List.filter_congr fun p _ => ?_
    simp only [List.map_cons, List.mem_cons, not_or, Bool.decide_and]
    rw [Bool.and_comm]

/-- After a write's cancellations only the slots it does not fall in are left (R48). -/
theorem cancelAt_length {e : Engine} {off a : Nat} {c : Chip} (hn : ((c.held e).map (·.id)).Nodup) :
    ((cancelAt (.receive e off) a c).held e).length ≤
      ((c.held e).filter fun v => !inRun v.word0 8 a).length := by
  have hp := congrArg List.length (foldl_cancelSlot_places (c.slotsAt e a) hn)
  rw [List.length_map, List.filter_map, List.length_map] at hp
  rw [cancelAt, hp, ← List.countP_eq_length_filter, ← List.countP_eq_length_filter]
  refine List.countP_mono_left fun v hv hk => ?_
  by_contra hr
  have hs : v ∈ c.slotsAt e a := List.mem_filter.mpr ⟨hv, by simpa using hr⟩
  exact of_decide_eq_true hk (List.mem_map_of_mem hs)

/-! ### What a write is shown to before memory (R3) -/

@[simp] theorem captureWrite_held (e r : Engine) (region : Region) (a : Nat) (be : BitVec 2) (d : Word) (c : Chip) :
    (captureWrite e region a be d c).held r = c.held r := by
  unfold captureWrite
  dsimp only
  split
  · rfl
  · rw [putCtx_held]

/-- Capture changes the engine's context only. -/
theorem captureWrite_frame (e : Engine) (region : Region) (a : Nat) (be : BitVec 2) (d : Word) (c : Chip) :
    captureWrite e region a be d c = c.withFrm (captureWrite e region a be d c).frm := by
  unfold captureWrite
  dsimp only
  split
  · rfl
  · cases e <;> rfl

theorem cancelAt_frame (region : Region) (a : Nat) (c : Chip) :
    cancelAt region a c = { c with
      path := (cancelAt region a c).path, frm := (cancelAt region a c).frm, evt := (cancelAt region a c).evt } := by
  unfold cancelAt
  split
  · next e _ =>
    refine List.foldlRecOn (motive := fun d : Chip => d = { c with path := d.path, frm := d.frm, evt := d.evt }) _ _
      rfl fun b hb v _ => ?_
    rw [cancelSlot_frame]
    generalize (cancelSlot e v b).path = p
    generalize (cancelSlot e v b).frm = f
    generalize (cancelSlot e v b).evt = u
    rw [hb]
  · rfl

/-- Before memory a write touches the queue, the frame unit and the event unit only. -/
theorem frameShown_frame (x : Access) (c : Chip) :
    frameShown x c = { c with
      path := (frameShown x c).path, frm := (frameShown x c).frm, evt := (frameShown x c).evt } := by
  unfold frameShown
  dsimp only
  split
  · rw [captureWrite_frame]
    exact congrArg (Chip.withFrm _) (cancelAt_frame x.region x.addr c)
  · exact cancelAt_frame x.region x.addr c

@[simp] theorem frameShown_ctl (x : Access) (c : Chip) : (frameShown x c).ctl = c.ctl := by
  rw [frameShown_frame]

theorem completion_region {x : Access} {e : Engine} {i : Nat} (h : x.completion = some (e, i)) :
    ∃ off, x.region = .receive e off ∧ masterEngine x.master = some e ∧ x.write = true ∧ x.be = 3 ∧
      off % 8 = 0 ∧ ownerField x.data = 1 ∧ i = off / 8 := by
  unfold Access.completion at h
  split at h
  · next e' off m hr hm =>
    split at h
    · next hc =>
      obtain ⟨rfl, hw, hb, ho, hd⟩ := hc
      cases h
      exact ⟨off, hr, hm, hw, by simpa [fullWord] using hb, ho, hd, rfl⟩
    · exact nomatch h
  · exact nomatch h

/-- A completion that no full held list stretches finds a free slot once it has cancelled (R14, R39). -/
theorem slot_free_of_noSlotFor {x : Access} {c : Chip} {e : Engine} {i : Nat} (hc : c.sound)
    (hs : c.noSlotFor x = false) (hx : x.completion = some (e, i)) (hr : c.ctl.mode = .run) :
    ((strikeAt x.addr (frameShown x c)).held e).length < Config.heldLimit := by
  obtain ⟨off, hreg, hm, _⟩ := completion_region hx
  have hl := cancelAt_length (off := off) (a := x.addr) (hc.names e).1
  have hf : (strikeAt x.addr (frameShown x c)).held e = (cancelAt (.receive e off) x.addr c).held e := by
    rw [Chip.held_of_frm (strikeAt_frm _ _), frameShown, hreg, hm]
    exact captureWrite_held _ _ _ _ _ _ _
  rw [hf]
  refine hl.trans_lt (Nat.lt_of_not_le fun h => ?_)
  simp [Chip.noSlotFor, hx, hr, h] at hs

/-! ### Every step -/

theorem performAccess_sound {x : Access} {s : State} (hs : s.chip.noSlotFor x = false) (h : s.chip.sound) :
    (performAccess x s).chip.sound := by
  unfold performAccess
  split
  · exact writeAccess_keeps partKeeps_sound (fun e i hx hr => slot_free_of_noSlotFor h hs hx hr) (by simp) h
  · exact readShown_keeps partKeeps_sound h

theorem privateCycle_sound {s : State} (h : s.chip.sound) : (privateCycle s).chip.sound := by
  have hd := dropOldest_sound h
  unfold privateCycle
  split
  · exact h
  · split
    · exact depositDone_keeps partKeeps_sound hd
    · exact fetchDone_keeps partKeeps_sound hd
    · exact hd

theorem ownWork_sound {f : Chip → Chip} {c : Chip} (hf : OwnWork f) (h : c.sound) : (f c).sound := by
  have hP := partKeeps_sound
  have hg : GiveKeeps Chip.sound top := top_keeps hP.toTrunkKeeps
  cases hf with
  | release cab =>
    unfold resetRise
    split
    · exact h.congr rfl (fun _ => rfl) rfl rfl rfl rfl
    · exact h
  | tick v => exact tickWork_keeps hP hg h
  | second => exact runSecond_keeps hP hg h
  | decay => exact runDecay_keeps hP hg h
  | hold t => exact runHold_keeps hP hg h
  | trial t => exact runTrial_keeps hP hg h
  | clear t => exact runClear_keeps hP h
  | idle j => exact runIdle_keeps hP hg h
  | grace j => exact runGrace_keeps hP hg h
  | timer k => exact runTimer_keeps hP hg h
  | station => exact applyWaiting_keeps hP h
  | place => exact givePlace_sound h
  | stage e => exact stageTwo_keeps hP h

theorem rawAccess_chip (w : Bool) (a : Nat) (be : BitVec 2) (d : Word) (s : State) :
    (rawAccess w a be d s).chip = s.chip := by
  unfold rawAccess
  split <;> rfl

/-- The part at reset, and in it, meets the invariant. -/
theorem reset_sound : Chip.reset.sound := by
  refine ⟨Nat.zero_le _, rfl, fun e => ?_, fun e => ?_, ⟨fun _ he => (nomatch he), fun o => ?_⟩, fun _ => rfl,
    by unfold UnitRec.inRange; decide⟩
  · cases e <;> exact Nat.zero_le _
  · cases e <;> exact ⟨List.nodup_nil, fun v hv => nomatch hv⟩
  · cases o <;> exact fun e he => nomatch he

theorem stepKeeps_sound : StepKeeps fun s => s.chip.sound where
  perform hs h := performAccess_sound hs h
  hold h := h.withPath h.1 h.runs (fun hb => nomatch hb) (Nat.le_refl _)
  free h := h.withPath h.1 h.runs (fun _ => rfl) (Nat.le_refl _)
  ask hb h := h.withPath h.1 h.runs (fun hn => nomatch hb.symm.trans hn) (Nat.le_refl _)
  place h := givePlace_sound h
  cycle h := privateCycle_sound h
  stage h := stageTwo_keeps partKeeps_sound h
  raw h := by rwa [rawAccess_chip]
  levels h := partKeeps_sound.pins h
  fall _ := reset_sound.congr rfl (fun _ => rfl) rfl rfl rfl rfl
  own hf h := ownWork_sound hf h
  pending h := h

/-- Settles O59: the invariant is kept by each unit's elementary changes, and a completion finds a free slot. -/
theorem partStaysSound : Obligations.PartStaysSound := by
  unfold Obligations.PartStaysSound
  exact fun s t h ht => stepKeeps_sound.step h ht

/-- Settles O60: memory is empty and so are the part's tables. -/
theorem resetIsSound : Obligations.ResetIsSound := by
  unfold Obligations.ResetIsSound
  exact ⟨Memory.wf_nil, reset_sound⟩

end Sys2Proof.Machine

/-! PROOF. Pin reset and the accesses while RESET is asserted (R1, R2, R15), and the WAIT that holds an access (R12
to R14). -/

namespace Sys2Proof.Machine

/-! ### The fall of RESET: memory -/

@[simp] theorem breakCycle_chip (s : State) : (breakCycle s).chip = s.chip := by
  unfold breakCycle
  split
  · rfl
  · split <;> rfl

@[simp] theorem breakCycle_pending (s : State) : (breakCycle s).pending = s.pending := by
  unfold breakCycle
  split
  · rfl
  · split <;> rfl

@[simp] theorem breakCycle_dataOut (s : State) : (breakCycle s).dataOut = s.dataOut := by
  unfold breakCycle
  split
  · rfl
  · split <;> rfl

/-- With nothing queued, or a fetch at the front, no word reaches memory as a cycle is broken off. -/
theorem breakCycle_nil {s : State} (h : s.chip.path.queue = []) : breakCycle s = s := by
  unfold breakCycle
  rw [h]

theorem breakCycle_fetch {s : State} {e : Entry} {q : List Entry} {a n : Nat} (h : s.chip.path.queue = e :: q)
    (hw : e.work = .fetch a n) : breakCycle s = s := by
  unfold breakCycle
  simp only [h, hw]

/-- Of a deposit broken off some number of its unstruck words is written, the first ones (assumption 9). -/
theorem breakCycle_deposit {s : State} {e : Entry} {q : List Entry} {a : Nat} {ws : List (Word × Bool)}
    (h : s.chip.path.queue = e :: q) (hw : e.work = .deposit a ws) :
    ∃ k, (breakCycle s).mem = writeRun s.mem a ws k := by
  refine ⟨Config.brokenWords s.freeCount, ?_⟩
  unfold breakCycle
  simp only [h, hw]

@[simp] theorem rawAccess_pending (w : Bool) (a : Nat) (be : BitVec 2) (d : Word) (s : State) :
    (rawAccess w a be d s).pending = s.pending := by
  unfold rawAccess
  split <;> rfl

@[simp] theorem rawAccess_freeCount (w : Bool) (a : Nat) (be : BitVec 2) (d : Word) (s : State) :
    (rawAccess w a be d s).freeCount = s.freeCount := by
  unfold rawAccess
  split <;> rfl

theorem releaseBus_free {s : State} (h : s.chip.path.bus = none) : releaseBus s = s := by
  unfold releaseBus
  rw [h]

/-- An access that WAIT held, no other asked for, reaches memory as the master made it (R15). -/
theorem releaseBus_held {s : State} {b : Stretch} (h : s.chip.path.bus = some b) (ha : s.chip.path.asking = []) :
    releaseBus s = rawAccess b.access.write b.access.addr b.access.be b.access.data s := by
  unfold releaseBus
  simp only [h, ha, List.foldl_nil]

theorem releaseBus_keeps (s : State) : (releaseBus s).chip = s.chip ∧ (releaseBus s).pending = s.pending := by
  unfold releaseBus
  split
  · exact ⟨rfl, rfl⟩
  · refine List.foldlRecOn (motive := fun t : State => t.chip = s.chip ∧ t.pending = s.pending) _ _
      ⟨rawAccess_chip _ _ _ _ _, rawAccess_pending _ _ _ _ _⟩ fun t ht p _ => ?_
    exact ⟨(rawAccess_chip _ _ _ _ _).trans ht.1, (rawAccess_pending _ _ _ _ _).trans ht.2⟩

theorem resetFall_chip (b : Bool) (s : State) : (resetFall b s).chip =
    { Chip.reset with resetAsserted := true, cab := s.chip.cab, pins := s.chip.pins } := by
  have h : (releaseBus (if b then breakCycle s else s)).chip = s.chip := by
    rw [(releaseBus_keeps _).1]
    split <;> simp
  rw [resetFall, State.onChip_chip, h, Chip.inReset]

theorem resetFall_pending (b : Bool) (s : State) : (resetFall b s).pending = s.pending := by
  rw [resetFall, State.onChip_pending, (releaseBus_keeps _).2]
  split <;> simp

/-- With no access held, the fall of RESET writes what a cycle broken off writes, and no more. -/
theorem resetFall_free {b : Bool} {s : State} (h : s.chip.path.bus = none) :
    (resetFall b s).mem = (if b then breakCycle s else s).mem ∧ (resetFall b s).dataOut = s.dataOut := by
  have hb : (if b then breakCycle s else s).chip.path.bus = none := by
    split <;> simp [h]
  refine ⟨by rw [resetFall, State.onChip_mem, releaseBus_free hb], ?_⟩
  rw [resetFall, State.onChip_dataOut, releaseBus_free hb]
  split <;> simp

theorem resetFall_held {s : State} {x : Stretch} (h : s.chip.path.bus = some x) (ha : s.chip.path.asking = []) :
    resetFall false s =
      (rawAccess x.access.write x.access.addr x.access.be x.access.data s).onChip Chip.inReset :=
  congrArg (State.onChip Chip.inReset) (releaseBus_held h ha)

/-! ### The release of RESET -/

theorem resetRise_of_asserted {c : Chip} (h : c.resetAsserted = true) (cab : BitVec 7) :
    resetRise cab c = { c with resetAsserted := false, cab := cab } := by
  simp [resetRise, h]

theorem resetRise_of_released {c : Chip} (h : c.resetAsserted = false) (cab : BitVec 7) : resetRise cab c = c := by
  simp [resetRise, h]

/-! ### Accesses on the pins -/

/-- A command that shows an access presents it to the part with the lines at some levels. -/
theorem exec_shown_withPins {i : Instr} {p : Pins} {s : State} (h : s.chip.shown i = some p) :
    ∃ v, exec i s = .next (presented p (s.withChip (s.chip.withPins v))) :=
  ⟨_, exec_shown h⟩

theorem presented_inReset {p : Pins} {s : State} (h : s.chip.resetAsserted = true) :
    presented p s = rawAccess p.write p.addr.toNat p.be p.data s := by
  simp [presented, h]

/-- On a free bus an access presented begins. -/
theorem presented_free {p : Pins} {s : State} (hr : s.chip.resetAsserted = false) (hb : s.chip.path.bus = none) :
    presented p s = beginAccess (p.access s.chip) s := by
  simp [presented, hr, settle_free _ hb, askAccess_free hb]

/-- The class of an access does not go by the lines' levels. -/
@[simp] theorem access_withPins (p : Pins) (v : Octet) (c : Chip) : p.access (c.withPins v) = p.access c := rfl

/-- Settles O3: the fall breaks off the cycle and lets the held access go, then the part is reset. -/
theorem resetFallsAndIsReleased : Obligations.ResetFallsAndIsReleased := by
  unfold Obligations.ResetFallsAndIsReleased
  refine ⟨fun b s => ⟨resetFall b s, rfl, resetFall_pending b s, resetFall_chip b s, fun hb => ?_,
    fun x hx hf ha => ?_⟩, fun cab s => ⟨fun hr => ?_, fun hr => ?_, fun b t ht => ?_⟩, fun i p s hi hr => ?_⟩
  · obtain ⟨hm, hd⟩ := resetFall_free (b := b) hb
    refine ⟨hd, fun h => ?_, fun h hq => ?_, fun h e q a n hq hw => ?_, fun h e q a ws hq hw => ?_⟩ <;> subst h
    · exact hm
    · exact hm.trans (congrArg State.mem (breakCycle_nil hq))
    · exact hm.trans (congrArg State.mem (breakCycle_fetch hq hw))
    · obtain ⟨k, hk⟩ := breakCycle_deposit hq hw
      exact ⟨k, hm.trans hk⟩
  · subst hf
    rw [resetFall_held hx ha]
    constructor <;> intro hw <;> simp [rawAccess, hw]
  · show Host.Outcome.next (s.onChip (resetRise cab)) = .next s
    rw [State.onChip, resetRise_of_released hr]
    rfl
  · refine ⟨s.onChip (resetRise cab), rfl, ⟨rfl, rfl, rfl, rfl⟩, resetRise_of_asserted hr cab, ?_, fun o ho => ?_⟩
    · rw [State.onChip_chip, resetRise_of_asserted hr]
      rfl
    · rw [State.onChip_chip, resetRise_of_asserted hr]
      exact Chip.classify_control { s.chip with resetAsserted := false, cab := cab } ho
  · obtain rfl := Host.Outcome.next.inj ht
    refine ⟨(resetFall b s).onChip (resetRise cab), rfl, ?_, rfl⟩
    rw [State.onChip_chip, resetFall_chip, resetRise_of_asserted rfl]
    rfl
  · obtain ⟨v, he⟩ := exec_shown_withPins hi
    rw [presented_inReset (by exact hr)] at he
    refine ⟨_, he, ?_, by simp, by simp, fun hw => ?_, fun hw => ?_⟩
    · rw [rawAccess_chip]
      rfl
    · exact ⟨wordWritten_of_mem (by simp [rawAccess, hw]), by simp [rawAccess, hw]⟩
    · simp [rawAccess, hw]

/-! ### WAIT (R12 to R14) -/

theorem noSlotFor_iff {c : Chip} {x : Access} : c.noSlotFor x = true ↔
    ∃ e k, x.completion = some (e, k) ∧ c.ctl.mode = .run ∧
      4 ≤ ((c.held e).filter fun v => !inRun v.word0 8 x.addr).length := by
  unfold Chip.noSlotFor
  constructor
  · intro h
    split at h
    · next e k hx =>
      rw [Bool.and_eq_true, decide_eq_true_eq, decide_eq_true_eq] at h
      exact ⟨e, k, hx, h.1, h.2⟩
    · exact nomatch h
  · rintro ⟨e, k, hx, hr, hl⟩
    simp [hx, hr, Config.heldLimit, hl]

/-- The private cycles an access owes as it begins (R12, R13). -/
theorem owedTo_eq (c : Chip) (x : Access) : c.owedTo x =
    max (if x.write then 0 else lastHolding x.addr c.path.queue) (if 16 ≤ c.path.queue.length then 1 else 0) := by
  have h : (if c.hasPlace then 0 else 1) = if 16 ≤ c.path.queue.length then 1 else 0 := by
    by_cases hq : 16 ≤ c.path.queue.length
    · simp [Chip.hasPlace, Config.queueLimit, hq, Nat.not_lt.mpr hq]
    · simp [Chip.hasPlace, Config.queueLimit, hq, Nat.lt_of_not_le hq]
  rw [Chip.owedTo, h]

/-- An access that waits for something, or for a slot, is held; nothing else happens. -/
theorem beginAccess_held {x : Access} {s : State} (h : s.chip.owedTo x ≠ 0 ∨ s.chip.noSlotFor x = true) :
    beginAccess x s = s.onChip fun c => c.withPath { c.path with
      bus := some { access := x, owed := s.chip.owedTo x } } := by
  have hn : ¬ (s.chip.owedTo x = 0 ∧ (!s.chip.noSlotFor x) = true) := by
    rintro ⟨h1, h2⟩
    rcases h with h | h
    · exact h h1
    · simp [h] at h2
  simp only [beginAccess, if_neg hn]

/-- Where no place is due, the queue is empty and no frame is ready, the part has no move of its own. -/
theorem ownMove_none {s : State} (hq : s.chip.path.queue = []) (ho : ∀ o, s.chip.offered o = none)
    (he : ∀ e v, s.chip.atEvaluation e = some v → v.ready s.chip.ctl.unit e = false) : ownMove s = none := by
  have hp : s.chip.placeDue = false := by
    simp [Chip.placeDue, List.findSome?_eq_none_iff.mpr fun o _ => ho o]
  have hs : ∀ e, s.chip.stageDue e = false := by
    intro e
    unfold Chip.stageDue
    rw [Bool.and_eq_false_iff]
    right
    split
    · next hv => exact he e _ hv
    · rfl
  simp [ownMove, hp, hq, hs]

theorem stretchOver_of_noSlotFor {c : Chip} {b : Stretch} (h : c.noSlotFor b.access = true) :
    c.stretchOver b = false := by
  simp [Chip.stretchOver, h]

/-- Settles O12: an access that owes private cycles or lacks a slot is held as it begins. -/
theorem waitHoldsTheAccess : Obligations.WaitHoldsTheAccess := by
  unfold Obligations.WaitHoldsTheAccess
  intro i p s hi hr full
  obtain ⟨v, he⟩ := exec_shown_withPins hi
  refine ⟨fun hb hc => ?_, fun b hb hf hq ho hv => ?_⟩
  · have hw : s.chip.owedTo (p.access s.chip) ≠ 0 ∨ s.chip.noSlotFor (p.access s.chip) = true := by
      rcases hc with ⟨hw, hl⟩ | hl | hf
      · left
        simp only [owedTo_eq, Pins.access, classed, hw]
        simp only [Bool.false_eq_true, if_false]
        omega
      · left
        rw [owedTo_eq, if_pos hl]
        omega
      · exact .inr (noSlotFor_iff.mpr hf)
    rw [presented_free (by exact hr) (by exact hb), beginAccess_held (by exact hw)] at he
    refine ⟨_, he, ⟨rfl, rfl, rfl, rfl⟩, ?_⟩
    simp only [State.onChip_chip, State.withChip_chip, access_withPins]
    rw [show (s.chip.withPins v).owedTo (p.access s.chip) = s.chip.owedTo (p.access s.chip) from rfl, owedTo_eq]
    rfl
  · have hs : s.chip.stretchOver b = false := stretchOver_of_noSlotFor (noSlotFor_iff.mpr hf)
    have hm : ownMove (s.withChip (s.chip.withPins v)) = none := ownMove_none hq ho hv
    rw [← present_presented, present_held (s := s.withChip (s.chip.withPins v)) hr hb hs hm] at he
    exact ⟨_, he, ⟨rfl, rfl, rfl, rfl⟩, rfl⟩

end Sys2Proof.Machine

/-! PROOF. Strikes (R10), and the writes that no receive engine makes: in plain memory (R4), in the control area
where they are not taken (R5, R18), and of a transmit descriptor (R93, R94). -/

namespace Sys2Proof.Machine

/-! ### Struck words -/

theorem strikeWords_getD (x a : Nat) (ws : List (Word × Bool)) {k : Nat} (hk : k < ws.length) :
    (strikeWords x a ws).getD k (0, true) =
      ((ws.getD k (0, true)).1, (ws.getD k (0, true)).2 || decide ((a + k) % Config.memoryWords = x)) := by
  induction ws generalizing a k with
  | nil => exact absurd hk (Nat.not_lt_zero k)
  | cons w ws ih =>
    cases k with
    | zero => rfl
    | succ k =>
      have h := ih (a + 1) (Nat.lt_of_succ_lt_succ hk)
      rw [Nat.add_right_comm] at h
      simpa [strikeWords, Nat.add_assoc] using h

/-- Where every word at the address is struck already, a strike changes nothing. -/
theorem strikeWords_of_struck {x a : Nat} {ws : List (Word × Bool)}
    (h : ∀ k < ws.length, (a + k) % Config.memoryWords = x → (ws.getD k (0, true)).2 = true) :
    strikeWords x a ws = ws := by
  induction ws generalizing a with
  | nil => rfl
  | cons w ws ih =>
    obtain ⟨d, b⟩ := w
    have h0 := h 0 (by simp)
    have hs := ih (a := a + 1) fun k hk hx =>
      h (k + 1) (by simpa using hk) (by rwa [← Nat.add_assoc, Nat.add_right_comm])
    rw [strikeWords, hs]
    by_cases hx : a % Config.memoryWords = x
    · have hb : b = true := h0 hx
      simp [hb]
    · simp [hx]

/-- The entry is a deposit that holds the word at `x` unstruck. -/
def Entry.holds (x : Nat) (e : Entry) : Bool :=
  match e.work with
  | .deposit a ws =>
    (List.range ws.length).any fun k => decide ((a + k) % Config.memoryWords = x) && (ws.getD k (0, true)).2 == false
  | _ => false

theorem lastHolding_cons (x : Nat) (e : Entry) (q : List Entry) : lastHolding x (e :: q) =
    if lastHolding x q ≠ 0 then lastHolding x q + 1 else if e.holds x then 1 else 0 := rfl

theorem Entry.holds_eq_false_iff {x : Nat} {e : Entry} : e.holds x = false ↔ ∀ a ws, e.work = .deposit a ws →
    ∀ k < ws.length, (a + k) % Config.memoryWords = x → (ws.getD k (0, true)).2 = true := by
  unfold Entry.holds
  split
  · next a ws hw => simp [hw]
  · next hw => simpa using fun a ws h => absurd h (hw a ws)

/-- No queued deposit holds the word at `x` unstruck (R13). -/
theorem lastHolding_eq_zero_iff {x : Nat} {q : List Entry} : lastHolding x q = 0 ↔ ∀ e ∈ q, e.holds x = false := by
  induction q with
  | nil => simp [lastHolding]
  | cons e q ih =>
    rw [List.forall_mem_cons, ← ih, lastHolding_cons]
    cases e.holds x <;> split <;> simp_all

/-- After a strike no queued deposit holds the word. -/
theorem lastHolding_strikeAt (a : Nat) (c : Chip) : lastHolding a (strikeAt a c).path.queue = 0 := by
  rw [strikeAt_path, lastHolding_eq_zero_iff]
  intro e he
  rw [Entry.holds_eq_false_iff]
  intro b ws hw k hk hx
  obtain ⟨f, _, rfl⟩ := List.mem_map.mp (List.mem_of_mem_filter he)
  unfold strikeEntry at hw
  split at hw
  · next b' ws' _ =>
    cases hw
    rw [strikeWords_length] at hk
    rw [strikeWords_getD _ _ _ hk, decide_eq_true hx, Bool.or_true]
  · next hf => exact absurd hw (hf b ws)

/-- A strike changes the queue, the event unit and the command in progress only. -/
theorem strikeAt_over (a : Nat) (c : Chip) : strikeAt a c = c.over (strikeAt a c) := by
  have h : (strikeAt a c).ctl = { c.ctl with command := (strikeAt a c).ctl.command } := (strikeAt_keeps a c).1
  exact Chip.eq_of_units (by simp [Chip.over]) (by simp [Chip.over]) (by simp [Chip.over]) rfl h
    (by simp [Chip.over]) (by simp [Chip.over]) (by simp [Chip.over]) (by simp [Chip.over]) (by simp [Chip.over]) rfl

/-- Where no deposit is struck whole, a strike changes the queue only. -/
theorem strikeAt_of_none_whole {a : Nat} {c : Chip} (h : ∀ e ∈ c.path.queue, (strikeEntry a e).allStruck = false) :
    strikeAt a c = c.withPath (strikeAt a c).path := by
  have hn : (c.path.queue.map (strikeEntry a)).filter Entry.allStruck = [] := by
    simpa [List.filter_eq_nil_iff] using h
  rw [strikeAt_path, strikeAt]
  simp only [hn, List.foldl_nil]

theorem strikeEntry_of_not_holding {x : Nat} {e : Entry} (h : e.holds x = false) : strikeEntry x e = e := by
  unfold strikeEntry
  split
  · next a ws hw => rw [strikeWords_of_struck (Entry.holds_eq_false_iff.mp h a ws hw), ← hw]
  · rfl

/-- A write of a word that no queued deposit holds, while none is struck whole, leaves the queue as it is. -/
theorem strikeAt_of_not_holding {a : Nat} {c : Chip} (hw : ∀ e ∈ c.path.queue, e.allStruck = false)
    (hl : lastHolding a c.path.queue = 0) : strikeAt a c = c := by
  have hs : ∀ e ∈ c.path.queue, strikeEntry a e = e := fun e he =>
    strikeEntry_of_not_holding (lastHolding_eq_zero_iff.mp hl e he)
  have hm : c.path.queue.map (strikeEntry a) = c.path.queue := by
    rw [List.map_congr_left hs, List.map_id']
  have hf : (c.path.queue.filter fun e => !e.allStruck) = c.path.queue :=
    List.filter_eq_self.mpr fun e he => by simp [hw e he]
  rw [strikeAt_of_none_whole fun e he => by rw [hs e he]; exact hw e he, strikeAt_path, hm, hf]
  rfl

theorem strikeEntry_fetch {x n k : Nat} {e : Entry} (h : e.work = .fetch n k) :
    strikeEntry x e = e ∧ e.allStruck = false := by
  simp [strikeEntry, Entry.allStruck, h]

/-- A fetch is never withdrawn by a strike. -/
theorem fetch_mem_strikeAt {a n k : Nat} {c : Chip} {e : Entry} (he : e ∈ c.path.queue) (h : e.work = .fetch n k) :
    e ∈ (strikeAt a c).path.queue := by
  obtain ⟨hs, hn⟩ := strikeEntry_fetch (x := a) h
  rw [strikeAt_path]
  exact List.mem_filter.mpr ⟨hs ▸ List.mem_map_of_mem he, by simp [hn]⟩

/-! ### Writes by masters that are no receive engine -/

theorem noOctet_eq_false {be : BitVec 2} (h : be ≠ 0) : noOctet be = false := by
  exact decide_eq_false h

/-- A write that is placed: memory as the units let it be, and the part struck and then shown the write. -/
theorem writeAccess_placed {x : Access} {s : State} (h : x.be ≠ 0) : writeAccess x s =
    (s.withMem (writeMasked s.mem x.addr x.be (rewritten (frameShown x s.chip) x))).withChip
      (unitsShown x (strikeAt x.addr (frameShown x s.chip))) := by
  simp [writeAccess, noOctet_eq_false h]

/-- Outside the receive rings a write cancels nothing. -/
theorem cancelAt_outside {region : Region} (a : Nat) (c : Chip) (hr : ∀ e off, region ≠ .receive e off) :
    cancelAt region a c = c := by
  unfold cancelAt
  split
  · exact absurd rfl (hr _ _)
  · rfl

/-- Outside the receive rings a master that is no receive engine shows the frame unit nothing. -/
theorem frameShown_other {x : Access} (c : Chip) (hm : masterEngine x.master = none)
    (hr : ∀ e off, x.region ≠ .receive e off) : frameShown x c = c := by
  simp [frameShown, hm, cancelAt_outside x.addr c hr]

theorem guards_of_region {c : Chip} {x : Access} (h : ∀ off, x.region ≠ .transmit off) : c.guards x = false := by
  unfold Chip.guards
  split
  · next h' => exact absurd h' (h _)
  · rfl

/-- Data is as the master made it in a write that is no completion and that the guard leaves alone (R6). -/
theorem rewritten_plain {c : Chip} {x : Access} (hx : x.completion = none) (hg : c.guards x = false) :
    rewritten c x = x.data := by
  simp [rewritten, hx, hg]

/-- A write in plain memory: it reaches memory as made and strikes the queue (R4, R10). -/
theorem writeAccess_plain {x : Access} {s : State} (hb : x.be ≠ 0) (hr : x.region = .plain)
    (hm : masterEngine x.master = none) : writeAccess x s =
      (s.withMem (writeMasked s.mem x.addr x.be x.data)).withChip (strikeAt x.addr s.chip) := by
  rw [writeAccess_placed hb, frameShown_other _ hm (by simp [hr]), rewritten_plain (completion_of_master hm)
    (guards_of_region (by simp [hr]))]
  simp only [unitsShown, hr]

/-- Settles O14: a plain write is made of the write of memory and the strike, whose lemmas give the clauses. -/
theorem plainWritesStrikeTheQueue : Obligations.PlainWritesStrikeTheQueue := by
  unfold Obligations.PlainWritesStrikeTheQueue
  intro m a be d s hs hbe hm hr
  have hc : (classed s.chip m true a be d).completion = none := completion_of_master hm
  have he : exec (.masterWrite m a be d) s =
      .next ((s.withMem (writeMasked s.mem a.toNat be d)).withChip (strikeAt a.toNat s.chip)) := by
    show present m true a be d s = _
    rw [present_write hs m a be d (noSlotFor_of_completion hc), writeAccess_plain hbe hr hm]
    rfl
  refine ⟨_, he, wordWritten_of_mem rfl, ⟨rfl, rfl, rfl⟩, strikeAt_over _ _, strikeAt_path _ _,
    lastHolding_strikeAt _ _, fun e he n k hw => fetch_mem_strikeAt he hw, fun h => strikeAt_of_none_whole h,
    fun h1 h2 => strikeAt_of_not_holding h1 h2⟩

/-! ### Writes in the control area that are not taken (R5, R18) -/

theorem isSome_ite_iff {α : Type} {p : Prop} [Decidable p] {a b : Option α} :
    (if p then a else b).isSome = true ↔ p ∧ a.isSome = true ∨ ¬ p ∧ b.isSome = true := by
  by_cases h : p <;> simp [h]

/-- The words the control unit takes writes from, by their offsets (R5, R16, R17). -/
theorem takesWrites_iff (u : UnitRec) (o : Nat) : takesWrites u o = true ↔
    o ≤ 4 ∨ 25 ≤ o ∧ o ≤ 28 ∨ 32 ≤ o ∧ o < 60 ∨ 64 ≤ o ∧ o < 120 ∨ 128 ≤ o ∧ o < u.eventWord := by
  have he : u.reactionWord ≤ u.eventWord := Nat.le_add_right _ _
  have hr : (recordAt u o).isSome = true ↔
      32 ≤ o ∧ o < 60 ∨ 64 ≤ o ∧ o < 120 ∨ 128 ≤ o ∧ o < u.eventWord := by
    unfold recordAt
    generalize u.reactionWord = r at he
    generalize u.eventWord = n at he
    simp only [isSome_ite_iff, Option.isSome_some, Option.isSome_none, and_true, false_or, or_false,
      Bool.false_eq_true, and_false]
    omega
  simp only [takesWrites, Bool.or_eq_true, Bool.and_eq_true, decide_eq_true_eq, hr]
  omega

/-- One event recorded: what it makes of the queue and the event unit. -/
theorem recordEvent_only (v : Event) (c : Chip) : c.only (recordEvent v c) [v.logged] := by
  obtain ⟨h1, h2⟩ := recordEvent_logStep v c
  exact ⟨recordEvent_grew v c, ⟨by simpa [Chip.log] using h1, by simpa [Chip.log] using h2⟩,
    fun o ho => recordEvent_other ho v c⟩

theorem recordEvent_over (v : Event) (c : Chip) : recordEvent v c = c.over (recordEvent v c) := by
  apply Chip.eq_of_units <;> simp [Chip.over]

theorem recordEvent_quiet (v : Event) (c : Chip) : c.quiet (recordEvent v c) [v.logged] :=
  ⟨recordEvent_only v c, recordEvent_over v c⟩

theorem grew_refl (c : Chip) : c.grew c := ⟨⟨[], by simp⟩, fun _ => ⟨[], by simp⟩, rfl, rfl⟩

/-- Nothing recorded. -/
theorem quiet_refl (c : Chip) : c.quiet c [] :=
  ⟨⟨grew_refl c, ⟨rfl, by simp [Chip.formed, Chip.log]⟩, fun o _ => by simp [Chip.formed]⟩, rfl⟩

end Sys2Proof.Machine

/-! PROOF. Writes that strike and are recorded: those not taken in the control area (R5, R18), and the transmit
guard (R93, R94). -/

namespace Sys2Proof.Machine

/-- A strike does not look at the frame unit. -/
theorem strikeAt_withFrm (a : Nat) (v : FrameUnit) (c : Chip) :
    strikeAt a (c.withFrm v) = (strikeAt a c).withFrm v := by
  have hd : ∀ (e : Entry) (d : Chip), depositStruck (d.withFrm v) e = (depositStruck d e).withFrm v := fun e d => by
    unfold depositStruck
    split <;> rfl
  have hl : ∀ (l : List Entry) (d : Chip), l.foldl depositStruck (d.withFrm v) = (l.foldl depositStruck d).withFrm v :=
    fun l => by
      induction l with
      | nil => exact fun _ => rfl
      | cons e l ih => exact fun d => by rw [List.foldl_cons, hd, ih, List.foldl_cons]
  exact hl _ (c.withPath { c.path with queue := (c.path.queue.map (strikeEntry a)).filter fun e => !e.allStruck })

/-- Outside the receive rings a write changes an engine's context at most before it strikes. -/
theorem frameShown_outside {x : Access} (c : Chip) (hr : ∀ e off, x.region ≠ .receive e off) :
    frameShown x c = c.withFrm (frameShown x c).frm ∧ ∀ e, (frameShown x c).held e = c.held e := by
  unfold frameShown
  rw [cancelAt_outside x.addr c hr]
  dsimp only
  split
  · exact ⟨captureWrite_frame _ _ _ _ _ _, fun e => captureWrite_held _ _ _ _ _ _ _⟩
  · exact ⟨rfl, fun _ => rfl⟩

/-- A write outside the receive rings is no completion. -/
theorem completion_of_region {x : Access} (hr : ∀ e off, x.region ≠ .receive e off) : x.completion = none := by
  unfold Access.completion
  split
  · next h _ => exact absurd h (hr _ _)
  · rfl

/-- A write in the control area on a free bus: it reaches memory as made, strikes, and is shown to the control
unit; only a receive engine's may have changed its context before (R3, R5). -/
theorem present_control {s : State} (h : s.busFree) (m : Master) {o : Nat} (ho : o < 8192) {be : BitVec 2}
    (hb : be ≠ 0) (d : Word) : ∃ v, (∀ e, (s.chip.withFrm v).held e = s.chip.held e) ∧
      (masterEngine m = none → v = s.chip.frm) ∧
      present m true (s.chip.controlAddr o) be d s =
        .next ((s.withMem (writeMasked s.mem (s.chip.controlAddr o).toNat be d)).withChip
          (controlShown (classed s.chip m true (s.chip.controlAddr o) be d) o ((s.struckAt o).withFrm v))) := by
  have ha : (s.chip.controlAddr o).toNat = s.chip.base + o := s.chip.controlAddr_toNat ho
  generalize hx : classed s.chip m true (s.chip.controlAddr o) be d = x
  have hreg : x.region = .control o := by
    simp only [← hx, classed, ha, s.chip.classify_control ho]
  have hr : ∀ e off, x.region ≠ .receive e off := by simp [hreg]
  obtain ⟨hf, hh⟩ := frameShown_outside s.chip hr
  refine ⟨(frameShown x s.chip).frm, fun e => by rw [← hf]; exact hh e, fun hm => ?_, ?_⟩
  · rw [frameShown_other s.chip (by rw [← hx]; exact hm) hr]
  · subst hx
    rw [present_write h _ _ _ _ (noSlotFor_of_completion (completion_of_region hr)), writeAccess_placed hb,
      rewritten_plain (completion_of_region hr) (guards_of_region (by simp [hreg])), State.struckAt, ← ha,
      ← strikeAt_withFrm, ← hf]
    simp only [unitsShown, hreg]
    rfl

/-- A processor's byte write in the control area: recorded where the control unit takes writes (R5). -/
theorem controlShown_byte {x : Access} (off : Nat) (c : Chip) (hm : x.master = .processor)
    (hb : fullWord x.be = false) : controlShown x off c = if takesWrites c.ctl.unit off then recordEvent (evByteWriteIgnored off) c else c := by
  simp [controlShown, hm, hb]

/-- An engine's write in the control area: recorded (R18). -/
theorem controlShown_stray {x : Access} (off : Nat) (c : Chip) (hm : x.master ≠ .processor) :
    controlShown x off c = recordEvent (evStrayWrite x.master off) c := if_pos hm

theorem octetPair_zero : octetPair 0 0 = 0 := by decide

theorem logged_byteWriteIgnored (o : Nat) : (evByteWriteIgnored o).logged = .plain .control 1 0 0 (wordNat o) :=
  congrArg (Logged.plain .control 1 0 · (wordNat o)) octetPair_zero

theorem logged_guardSkipped (i m : Nat) :
    (evGuardSkipped i m).logged = .plain .path 2 (wordNat i) (octetPair m 0) 0 :=
  congrArg (Logged.plain .path 2 (wordNat i) (octetPair m 0)) octetPair_zero

/-- Settles O15: neither write is taken, so the struck part differs by the record alone. -/
theorem writesNotTakenAreRecorded : Obligations.WritesNotTakenAreRecorded := by
  unfold Obligations.WritesNotTakenAreRecorded
  intro o d s hs
  dsimp only
  refine ⟨fun high => ?_, fun m be hm hb => ?_⟩
  · have hb : (if high then 2 else 1 : BitVec 2) ≠ 0 := by cases high <;> decide
    obtain ⟨v, -, hv, hp⟩ := present_control hs .processor o.isLt hb d
    have hu : (s.struckAt o.toNat).ctl.unit = s.chip.ctl.unit := strikeAt_ctl_unit _ _
    have hf : (s.struckAt o.toNat).withFrm s.chip.frm = s.struckAt o.toNat :=
      congrArg (Chip.withFrm · (s.struckAt o.toNat)) (strikeAt_frm _ s.chip).symm
    rw [hv rfl, hf, controlShown_byte _ _ rfl (by cases high <;> rfl), hu] at hp
    refine ⟨_, hp, wordWritten_of_mem rfl, ⟨rfl, rfl, rfl⟩, ?_⟩
    rw [State.withChip_chip]
    by_cases ht : takesWrites s.chip.ctl.unit o.toNat = true
    · rw [if_pos ht, if_pos ((takesWrites_iff _ _).mp ht)]
      rw [← logged_byteWriteIgnored]
      exact ⟨recordEvent_ctl _ _, recordEvent_quiet _ _⟩
    · rw [if_neg ht, if_neg (mt (takesWrites_iff _ _).mpr ht)]
      exact ⟨rfl, quiet_refl _⟩
  · obtain ⟨v, hh, -, hp⟩ := present_control hs m o.isLt hb d
    rw [controlShown_stray (x := classed s.chip m true (s.chip.controlAddr o.toNat) be d) _ _ hm] at hp
    refine ⟨_, hp, wordWritten_of_mem rfl, ⟨rfl, rfl, rfl⟩, recordEvent_ctl _ _, ?_, ?_,
      recordEvent_only (evStrayWrite m o.toNat) ((s.struckAt o.toNat).withFrm v)⟩
    · apply Chip.eq_of_units <;> simp [Chip.over]
    · intro e
      rw [← hh e]
      exact Chip.held_of_frm (recordEvent_frm _ _) e

/-! ### The transmit guard (R93, R94) -/

theorem bitOf_wordNat {n i : Nat} (hi : i < 16) : bitOf (wordNat n) i = n.testBit i := by
  rw [bitOf, wordNat, BitVec.getLsbD_ofNat, decide_eq_true hi, Bool.true_and]

/-- A guarded word bit by bit (section 6.5). -/
theorem bitOf_guardedWord (w : Word) {owner mask i : Nat} (sk : Bool) (hm : mask < 16) (hi : i < 16) :
    bitOf (guardedWord w owner mask sk) i =
      if i = 0 then sk
      else if 8 ≤ i ∧ i < 12 then mask.testBit (i - 8)
      else if 14 ≤ i then owner.testBit (i - 14)
      else bitOf w i := by
  have hb : bitNat sk < 2 ∧ sk = decide (bitNat sk = 1) := by cases sk <;> decide
  rw [guardedWord, bitOf_wordNat hi]
  simp only [bitOf, bitsOf, BitVec.getLsbD, Nat.testBit_eq_decide_div_mod_eq]
  generalize w.toNat = x
  generalize bitNat sk = b at hb
  obtain ⟨hb, rfl⟩ := hb
  interval_cases i <;> norm_num <;> omega

/-- A trunk of the mask that the guard leaves: named, and neither cut nor absent (R94). -/
def Chip.trunkLeft (c : Chip) (w : Word) (t : Nat) : Bool := bitOf w (8 + t) && !c.trunkGone t

/-- Some trunk of the mask is left. -/
def Chip.anyLeft (c : Chip) (w : Word) : Bool :=
  c.trunkLeft w 0 || c.trunkLeft w 1 || c.trunkLeft w 2 || c.trunkLeft w 3

theorem strippedMask_spec (c : Chip) (w : Word) : c.strippedMask w < 16 ∧
    (∀ t < 4, (c.strippedMask w).testBit t = c.trunkLeft w t) ∧
    (c.strippedMask w = 0 ↔ c.anyLeft w = false) := by
  have h : ∀ b0 b1 b2 b3 : Bool,
      let m := ([bitNat b0 * 2 ^ 0, bitNat b1 * 2 ^ 1, bitNat b2 * 2 ^ 2, bitNat b3 * 2 ^ 3] : List Nat).sum
      m < 16 ∧ (m.testBit 0 = b0 ∧ m.testBit 1 = b1 ∧ m.testBit 2 = b2 ∧ m.testBit 3 = b3) ∧
        (m = 0 ↔ (b0 || b1 || b2 || b3) = false) := by decide
  obtain ⟨h1, ⟨h20, h21, h22, h23⟩, h3⟩ := h (c.trunkLeft w 0) (c.trunkLeft w 1) (c.trunkLeft w 2) (c.trunkLeft w 3)
  refine ⟨h1, fun t ht => ?_, h3⟩
  match t, ht with
  | 0, _ => exact h20
  | 1, _ => exact h21
  | 2, _ => exact h22
  | 3, _ => exact h23

theorem guard_eq (c : Chip) (w : Word) : c.guard w =
    guardedWord w (if c.anyLeft w then ownerField w else 1) (c.strippedMask w) (!c.anyLeft w) := by
  obtain ⟨-, -, hz⟩ := strippedMask_spec c w
  cases hl : c.anyLeft w
  · have h0 := hz.mpr hl
    rw [Chip.guard, if_pos h0, h0]
    rfl
  · rw [Chip.guard, if_neg (mt hz.mp (by simp [hl]))]
    rfl

/-- The guard's rewrite bit by bit (R94). -/
theorem bitOf_guard (c : Chip) (w : Word) {i : Nat} (hi : i < 16) : bitOf (c.guard w) i =
    if i = 0 then !c.anyLeft w
    else if 8 ≤ i ∧ i < 12 then c.trunkLeft w (i - 8)
    else if i = 14 then (if c.anyLeft w then bitOf w 14 else true)
    else if i = 15 then (if c.anyLeft w then bitOf w 15 else false)
    else bitOf w i := by
  obtain ⟨hm, hbit, -⟩ := strippedMask_spec c w
  have ho : ∀ k < 2, (ownerField w).testBit k = bitOf w (14 + k) := fun k hk => by
    rw [ownerField, bitsOf, Nat.testBit_mod_two_pow, decide_eq_true hk, Bool.true_and, Nat.testBit_div_two_pow,
      Nat.add_comm]
    rfl
  rw [guard_eq, bitOf_guardedWord w _ hm hi]
  rcases (by omega : i < 14 ∨ i = 14 ∨ i = 15) with h | rfl | rfl
  · have hs : 8 ≤ i ∧ i < 12 → (c.strippedMask w).testBit (i - 8) = c.trunkLeft w (i - 8) := fun h =>
      hbit _ (by omega)
    split <;> [rfl; split <;> [exact hs ‹_›; simp (disch := omega) only [if_neg]]]
  · cases c.anyLeft w <;> simp [ho]
  · cases c.anyLeft w <;> simp [ho, show Nat.testBit 1 1 = false from rfl]

/-- Settles O20: the mask is stripped bit by bit (`bitOf_guard`), and the record is formed where none is left. -/
theorem guardStripsTheMask : Obligations.GuardStripsTheMask := by
  unfold Obligations.GuardStripsTheMask
  intro a d off s hs hreg hoff hd stays left
  have hstays : stays = s.chip.trunkLeft d := by
    funext k
    simp only [stays, Chip.trunkLeft, Chip.trunkGone, Bool.not_or, ← decide_not, Nat.not_le, Bool.and_assoc]
  have hleft : left = s.chip.anyLeft d := by
    simp only [left, hstays, Chip.anyLeft]
  rw [hleft, hstays]
  clear_value left stays
  generalize hx : classed s.chip .processor true a 3 d = x
  have hr : x.region = .transmit off := by rw [← hx]; exact hreg
  have hn : ∀ e o, x.region ≠ .receive e o := by simp [hr]
  have hguards : ∀ c : Chip, c.guards x = decide (c.ctl.mode = .run) := fun c => by
    have hf : fullWord x.be = true := by rw [← hx]; rfl
    have ho : ownerField x.data ≠ 1 := by rw [← hx]; exact hd
    have hm : x.master = .processor ∧ x.write = true := by rw [← hx]; exact ⟨rfl, rfl⟩
    simp [Chip.guards, hr, hf, ho, hm, hoff]
  have hp : exec (.transmitGuard a d) s =
      .next ((s.withMem (writeMasked s.mem a.toNat 3 (rewritten s.chip x))).withChip
        (unitsShown x (strikeAt a.toNat s.chip))) := by
    show present .processor true a 3 d s = _
    rw [present_write hs _ _ _ _ (noSlotFor_of_completion (by rw [hx]; exact completion_of_region hn)), hx,
      writeAccess_placed (by rw [← hx]; exact (by decide : (3 : BitVec 2) ≠ 0)),
      frameShown_other _ (by rw [← hx]; rfl) hn, ← hx]
    rfl
  have hw : rewritten s.chip x = if s.chip.ctl.mode = .run then s.chip.guard d else d := by
    rw [rewritten, completion_of_region hn, hguards, ← hx]
    simp [classed]
  have hu : ∀ c : Chip, unitsShown x c = if c.ctl.mode = .run then
      (if c.strippedMask d = 0 then recordEvent (evGuardSkipped (off / 8) (bitsOf d 8 4)) c else c)
      else c := fun c => by
    have hxd : x.data = d := by rw [← hx]; rfl
    simp [unitsShown, guardRecord, hr, hguards, hxd]
  have hmode : (strikeAt a.toNat s.chip).ctl.mode = s.chip.ctl.mode := strikeAt_ctl_mode _ _
  rw [hw, hu, hmode] at hp
  refine ⟨fun hrun => ?_, fun hrun => ?_⟩
  · rw [if_neg hrun, if_neg hrun] at hp
    exact ⟨_, hp, wordWritten_of_mem rfl, ⟨rfl, rfl, rfl⟩, rfl⟩
  · rw [if_pos hrun, if_pos hrun] at hp
    obtain ⟨-, -, hz⟩ := strippedMask_spec s.chip d
    have hsm : (strikeAt a.toNat s.chip).strippedMask d = s.chip.strippedMask d := by
      simp only [Chip.strippedMask, Chip.trunkGone, Chip.trunk, strikeAt_ctl_unit, strikeAt_hlth]
    rw [hsm] at hp
    refine ⟨_, _, hp, wordWritten_of_mem rfl, ⟨rfl, rfl, rfl⟩, fun i hi => bitOf_guard s.chip d hi, ?_, fun hl => ?_,
      fun hl => ?_⟩ <;> rw [State.withChip_chip]
    · split
      · exact recordEvent_ctl _ _
      · rfl
    · rw [if_neg (mt hz.mp (by simp [hl]))]
    · rw [if_pos (hz.mpr hl), ← logged_guardSkipped]
      exact recordEvent_quiet _ _

end Sys2Proof.Machine

/-! PROOF. What every access does to memory (R4 to R6), and the places of the queue (R8). -/

namespace Sys2Proof.Machine

/-! ### Memory and accesses -/

theorem writeMasked_none (m : List Host.Cell) (a : Nat) (d : Word) : writeMasked m a 0 d = m := rfl

/-- What a write places in memory (R4, R6). -/
theorem writeAccess_mem (x : Access) (s : State) :
    (writeAccess x s).mem = writeMasked s.mem x.addr x.be (rewritten (frameShown x s.chip) x) := by
  by_cases hb : x.be = 0
  · rw [hb, writeMasked_none, writeAccess, if_pos (by simp [noOctet, hb])]
  · rw [writeAccess_placed hb]
    rfl

theorem writeAccess_outside (x : Access) (s : State) : s.writeKept (writeAccess x s) := by
  unfold writeAccess
  split <;> exact ⟨rfl, rfl, rfl⟩

theorem writeAccess_none {x : Access} (hb : x.be = 0) (s : State) : writeAccess x s = s :=
  if_pos (by simp [noOctet, hb])

/-- What the guard acts on (R93). -/
theorem guards_iff {c : Chip} {x : Access} : c.guards x = true ↔ ∃ off, x.region = .transmit off ∧
    c.ctl.mode = .run ∧ x.master = .processor ∧ x.write = true ∧ x.be = 3 ∧ off % 8 = 0 ∧ ownerField x.data ≠ 1 := by
  unfold Chip.guards
  split
  · next off hr => simp [hr, fullWord, and_assoc]
  · next hr => simpa using fun off h => absurd h (hr off)

/-- Only in RUN, and only in a completion or a hand-over write, is data not as the master made it (R6). -/
theorem rewritten_eq_data {c : Chip} {x : Access}
    (h : c.ctl.mode = .run → x.completion = none ∧ c.guards x = false) : rewritten c x = x.data := by
  by_cases hr : c.ctl.mode = .run
  · exact rewritten_plain (h hr).1 (h hr).2
  · have hg : c.guards x = false := by
      rw [← Bool.not_eq_true, guards_iff]
      rintro ⟨off, -, hr', -⟩
      exact hr hr'
    simp [rewritten, hr, hg]

theorem readPart_frame (e : Engine) (i w : Nat) (d : Word) (c : Chip) :
    readPart e i w d c = c.withFrm (readPart e i w d c).frm ∧ ∀ r, (readPart e i w d c).held r = c.held r := by
  have h : ∀ v, c.putCtx e v = c.withFrm (c.putCtx e v).frm := fun v => by cases e <;> rfl
  unfold readPart
  dsimp only
  split
  · exact ⟨h _, fun r => putCtx_held _ _ _ r⟩
  · split
    · exact ⟨h _, fun r => putCtx_held _ _ _ r⟩
    · exact ⟨rfl, fun _ => rfl⟩

/-- A read changes at most the context of a receive engine that reads its own ring (R37). -/
theorem readShown_frame (x : Access) (d : Word) (c : Chip) :
    readShown x d c = c.withFrm (readShown x d c).frm ∧ (∀ r, (readShown x d c).held r = c.held r) ∧
      ((∀ e off, x.region = .receive e off → masterEngine x.master ≠ some e) → readShown x d c = c) := by
  unfold readShown
  split
  · next e off m hr hm =>
    split
    · next h =>
      obtain ⟨h1, h2⟩ := readPart_frame e (off / 8) (off % 8) d c
      exact ⟨h1, h2, fun hn => absurd (h ▸ hm) (hn e off hr)⟩
    · exact ⟨rfl, fun _ => rfl, fun _ => rfl⟩
  · exact ⟨rfl, fun _ => rfl, fun _ => rfl⟩

/-- Settles O10: what a write places is its data, masked, but for the two rewrites of R6. -/
theorem accessesReachMemory : Obligations.AccessesReachMemory := by
  unfold Obligations.AccessesReachMemory
  refine ⟨fun i p s hi hw hs hn => ?_, fun m a be s hs => ?_⟩
  · obtain ⟨v, he⟩ := exec_shown_withPins hi
    have hs' : (s.withChip (s.chip.withPins v)).busFree := hs
    rw [presented_free hs'.1 hs'.2.1, beginAccess_write hs' (by exact hw) (by exact hn), State.withChip_chip,
      access_withPins] at he
    have hmem := writeAccess_mem (p.access s.chip) (s.withChip (s.chip.withPins v))
    refine ⟨_, he, writeAccess_outside _ _, fun hb => ?_, fun k => ?_, ?_⟩
    · rw [writeAccess_none (by exact hb)]
      rfl
    · have hk : (p.access s.chip).addr % Config.memoryWords = p.addr.toNat := Nat.mod_eq_of_lt p.addr.isLt
      rw [hmem, readOctet_writeMasked, hk]
      split
      · next h => exact .inl h
      · split
        · next h => exact .inr (.inl h)
        · exact .inr (.inr rfl)
    · intro owner completes handsOver h
      have hd : rewritten (frameShown (p.access s.chip) (s.withChip (s.chip.withPins v)).chip) (p.access s.chip) =
          p.data := rewritten_eq_data fun hr => by
        rw [frameShown_ctl] at hr
        rcases h with h | h | ⟨hc, hg⟩
        · exact absurd hr h
        · refine ⟨Option.eq_none_iff_forall_ne_some.mpr fun ⟨e, k⟩ hx => ?_, ?_⟩
          · obtain ⟨_, _, _, _, hb, _⟩ := completion_region hx
            exact h hb
          · rw [← Bool.not_eq_true, guards_iff]
            rintro ⟨_, _, _, _, _, hb, _⟩
            exact h hb
        · refine ⟨Option.eq_none_iff_forall_ne_some.mpr fun ⟨e, k⟩ hx => ?_, ?_⟩
          · obtain ⟨off, hreg, hm, _, _, ho, hd, _⟩ := completion_region hx
            exact hc ⟨e, off, hreg, ho, hm, hd⟩
          · rw [← Bool.not_eq_true, guards_iff]
            rintro ⟨off, hreg, _, hm, _, _, ho, hd⟩
            exact hg ⟨off, hreg, ho, hm, hd⟩
      rw [hd] at hmem
      exact wordWritten_of_mem hmem
  · have he : exec (.masterRead m a be) s = .next (readAccess (classed s.chip m false a be 0) s) := present_read hs m be
    obtain ⟨h1, h2, h3⟩ := readShown_frame (classed s.chip m false a be 0) (readWord s.mem a.toNat) s.chip
    exact ⟨_, he, rfl, rfl, rfl, rfl, h1, h2, h3⟩

/-! ### Places in the queue (R8) -/

theorem givePlace_offered {c : Chip} {o : Owner} {e : Entry} {before after : List Owner}
    (hq : c.path.queue.length < Config.queueLimit) (ht : c.path.turn.fromTurn = before ++ o :: after)
    (hb : ∀ x ∈ before, c.offered x = none) (ho : c.offered o = some e) :
    givePlace c = joinQueue e (c.putWaiting e.owner ((c.waiting e.owner).drop 1)) := by
  have hf : c.path.turn.fromTurn.findSome? c.offered = some e := by
    rw [ht, List.findSome?_append, List.findSome?_eq_none_iff.mpr hb, List.findSome?_cons, ho]
    rfl
  simp [givePlace, Chip.hasPlace, hq, hf]

theorem waiting_of_offered {c : Chip} {o : Owner} {e : Entry} (h : c.offered o = some e) :
    c.waiting o = e :: (c.waiting o).drop 1 := by
  unfold Chip.offered at h
  split at h
  · exact nomatch h
  · next e' l hl =>
    split at h
    · exact nomatch h
    · cases h
      rw [hl]
      rfl

/-- A record shown does not go by the queue. -/
theorem inquiryRecord_putWaiting (k : InqKind) (i : Nat) (o : Owner) (l : List Entry) (c : Chip) :
    inquiryRecord (c.putWaiting o l) k i = inquiryRecord c k i := by
  cases o <;> cases k <;> rfl

theorem takenEntry_putWaiting (e : Entry) (o : Owner) (l : List Entry) (c : Chip) :
    takenEntry (c.putWaiting o l) e = takenEntry c e := by
  unfold takenEntry
  split
  · rw [inquiryRecord_putWaiting]
  · rfl

theorem takenEntry_with (c : Chip) (e : Entry) : takenEntry c e = { e with work := (takenEntry c e).work } := by
  unfold takenEntry
  split <;> rfl

/-- Settles O46: the first unit in turn with an entry on offer is the one found. -/
theorem queuePlacesGoInTurn : Obligations.QueuePlacesGoInTurn := by
  unfold Obligations.QueuePlacesGoInTurn
  intro s
  refine ⟨fun h => ?_, fun o e before after hq ht hb ho heo => ?_⟩
  · have hg : givePlace s.chip = s.chip := by
      rcases givePlace_cases s.chip with hg | ⟨o, e, hq, ho, hg⟩
      · exact hg
      · rcases h with h | h
        · exact absurd hq (Nat.not_lt.mpr h)
        · exact absurd ho (by simp [h o])
    exact congrArg (fun c => Host.Outcome.next (s.withChip c)) hg
  · have hg := givePlace_offered hq ht hb ho
    have hw := waiting_of_offered ho
    subst heo
    refine ⟨_, (takenEntry s.chip e).work, rfl, ⟨rfl, rfl, rfl, rfl⟩, ?_⟩
    rw [State.onChip_chip, hg]
    have hj : ∀ r, (joinQueue e (s.chip.putWaiting e.owner ((s.chip.waiting e.owner).drop 1))).waiting r =
        (s.chip.putWaiting e.owner ((s.chip.waiting e.owner).drop 1)).waiting r := fun r => by cases r <;> rfl
    refine ⟨?_, ?_, ?_, rfl, by simp [joinQueue], by simp [joinQueue], ?_, fun x hx => ?_⟩
    · apply Chip.eq_of_units <;> simp [joinQueue]
    · rw [← takenEntry_with]
      simp [joinQueue, takenEntry_putWaiting]
    · unfold takenEntry
      split <;> simp [unstruck, *]
    · rw [hj, putWaiting_waiting, ← hw]
    · rw [hj, putWaiting_waiting_of_ne hx]

end Sys2Proof.Machine

/-! PROOF. Completions of receive descriptors (R39 to R41), and the end of a stretch (R12 to R14). -/

namespace Sys2Proof.Machine

/-! ### Contexts and completions -/

/-- The work of the print, health, station and reaction units leaves the frame unit as it is. -/
theorem trunkKeeps_frm (f : FrameUnit) : TrunkKeeps fun d => d.frm = f where
  stn := id
  prt := id
  rct := id
  printerRec := id
  awaiting := id
  event h := (recordEvent_frm _ _).trans h
  feed _ _ h := (formDeposit_frm _ _ _ _ _).trans h
  hlth := id

theorem completionStageOne_frm (e : Engine) (w : Word) (c : Chip) : (completionStageOne e w c).frm = c.frm := by
  cases e with
  | coax => exact stageOne_keeps (trunkKeeps_frm c.frm) (top_keeps (trunkKeeps_frm c.frm)) rfl
  | pair => rfl

theorem dropContext_ctx (e r : Engine) (i : Nat) (c : Chip) :
    (dropContext e i c).ctx r = if r = e ∧ (c.ctx e).index = some i then Ctx.blank else c.ctx r := by
  unfold dropContext
  by_cases hi : (c.ctx e).index = some i
  · simp [hi]
  · simp [hi]

theorem dropContext_frame (e : Engine) (i : Nat) (c : Chip) :
    dropContext e i c = c.withFrm (dropContext e i c).frm ∧ ∀ r, (dropContext e i c).held r = c.held r := by
  unfold dropContext
  split
  · exact ⟨by cases e <;> rfl, fun r => putCtx_held _ _ _ r⟩
  · exact ⟨rfl, fun _ => rfl⟩

/-- A write of word 0 captured: the context keeps its descriptor, address and length, and outside the window its
octets; other contexts are not touched (R38). -/
theorem captureWrite_ctx {e : Engine} {off a : Nat} {be : BitVec 2} {d : Word} {c : Chip} (ho : off % 8 = 0) :
    let x := c.ctx e
    let y := (captureWrite e (.receive e off) a be d c).ctx e
    y.index = x.index ∧ y.lo = x.lo ∧ y.hi = x.hi ∧ y.len = x.len ∧
      ((∀ b, x.buffer = some b → ¬ (a + Config.memoryWords - b) % Config.memoryWords ≤ windowLast e) →
        y.octets = x.octets) := by
  unfold captureWrite
  dsimp only
  split
  · exact ⟨rfl, rfl, rfl, rfl, fun _ => rfl⟩
  · next b hb =>
    have h3 : decide (off % 8 = 3) = false := by simp [ho]
    simp only [putCtx_ctx, if_pos, h3, Bool.and_false, Bool.false_and, Bool.false_eq_true, if_false]
    split
    · next hk => exact ⟨rfl, rfl, rfl, rfl, fun h => absurd hk (h b hb)⟩
    · exact ⟨rfl, rfl, rfl, rfl, fun _ => rfl⟩

theorem captureWrite_ctx_of_ne {e r : Engine} (h : r ≠ e) (region : Region) (a : Nat) (be : BitVec 2) (d : Word)
    (c : Chip) : (captureWrite e region a be d c).ctx r = c.ctx r := by
  unfold captureWrite
  dsimp only
  split
  · rfl
  · rw [putCtx_ctx, if_neg h]

/-- A completion taken: its slot stands last in the held list, with what the context holds of it, and the context
is emptied (R39). -/
theorem takeCompletion_held {e : Engine} {i a : Nat} {w : Word} {c : Chip} (hn : c.namesOk) :
    (∃ b, { newSlot c e i a w with fetching := b } ∈ (takeCompletion e i a w c).held e) ∧
      ((takeCompletion e i a w c).held e).map (·.id) = (c.held e).map (·.id) ++ [c.path.serial] ∧
      (∀ r, r ≠ e → (takeCompletion e i a w c).held r = c.held r) ∧
      ∀ r, (takeCompletion e i a w c).ctx r = if r = e ∧ (c.ctx e).index = some i then Ctx.blank else c.ctx r := by
  obtain ⟨hnodup, hlt⟩ := hn e
  unfold takeCompletion
  extract_lets v p c1 c2
  have hv : v.id = c.path.serial := rfl
  have hf : (completionStageOne e w c2).frm = c2.frm := completionStageOne_frm e w c2
  have hh : ∀ r, (completionStageOne e w c2).held r = if r = e then c.held e ++ [v] else c.held r := fun r => by
    rw [Chip.held_of_frm hf, (dropContext_frame _ _ _).2, putHeld_held]
    rfl
  have hids : ((completionStageOne e w c2).held e).map (·.id) = (c.held e).map (·.id) ++ [c.path.serial] := by
    rw [hh, if_pos rfl, List.map_append, List.map_singleton, hv]
  have hnd : (((completionStageOne e w c2).held e).map (·.id)).Nodup := by
    refine hids ▸ List.nodup_append.mpr ⟨hnodup, List.nodup_singleton _, fun x hx y hy => ?_⟩
    obtain ⟨z, hz, rfl⟩ := List.mem_map.mp hx
    rw [List.mem_singleton.mp hy]
    exact Nat.ne_of_lt (hlt z hz)
  refine ⟨?_, ?_, fun r hr => ?_, fun r => ?_⟩
  · obtain ⟨f, hf⟩ := startEvaluation_held hnd
    rw [hf, hh, if_pos rfl]
    exact ⟨f v, List.mem_map.mpr ⟨v, by simp, rfl⟩⟩
  · rw [startEvaluation_ids hnd, hids]
  · rw [startEvaluation_held_of_ne hr, hh, if_neg hr]
  · rw [startEvaluation_ctx, Chip.ctx_of_frm hf, dropContext_ctx]
    simp only [putHeld_ctx]
    rfl

/-- A completion shown to the frame unit, where no slot holds its descriptor, is captured only (R38). -/
theorem frameShown_completion {x : Access} {c : Chip} {e : Engine} {i : Nat} (hx : x.completion = some (e, i))
    (hs : c.slotsAt e x.addr = []) : frameShown x c = captureWrite e x.region x.addr x.be x.data c := by
  obtain ⟨off, hr, hm, -⟩ := completion_region hx
  simp only [frameShown, hr, hm, cancelAt, hs, List.foldl_nil]

/-- What becomes of a completion (R39). -/
def completed (e : Engine) (i a : Nat) (w : Word) (c : Chip) : Chip :=
  if c.ctl.mode = .run then takeCompletion e i a w c else dropContext e i c

/-- A completion that reaches memory, where no slot holds its descriptor: captured as far as it falls in the
window, placed, striking, and then taken or passed (R38, R39). -/
theorem writeAccess_completion {x : Access} {s : State} {e : Engine} {i : Nat} (hx : x.completion = some (e, i))
    (hs : s.chip.slotsAt e x.addr = []) :
    ∃ f, (∀ r, (s.chip.withFrm f).held r = s.chip.held r) ∧
      (∀ r, r ≠ e → (s.chip.withFrm f).ctx r = s.chip.ctx r) ∧
      (let y := (s.chip.withFrm f).ctx e
        let z := s.chip.ctx e
        y.index = z.index ∧ y.lo = z.lo ∧ y.hi = z.hi ∧ y.len = z.len ∧
          ((∀ b, z.buffer = some b → ¬ (x.addr + Config.memoryWords - b) % Config.memoryWords ≤ windowLast e) →
            y.octets = z.octets)) ∧
      writeAccess x s =
        (s.withMem (writeMasked s.mem x.addr 3
          (if s.chip.ctl.mode = .run then withOwner x.data 2 else x.data))).withChip
          (completed e i x.addr x.data ((strikeAt x.addr s.chip).withFrm f)) := by
  obtain ⟨off, hr, hm, -, hb, ho, -, -⟩ := completion_region hx
  have hf : s.chip.withFrm (captureWrite e x.region x.addr x.be x.data s.chip).frm =
      captureWrite e x.region x.addr x.be x.data s.chip := (captureWrite_frame _ _ _ _ _ _).symm
  have hg : s.chip.guards x = false := guards_of_region (by simp [hr])
  refine ⟨(captureWrite e x.region x.addr x.be x.data s.chip).frm, ?_, ?_, ?_, ?_⟩
  · rw [hf]
    exact fun r => captureWrite_held _ _ _ _ _ _ _
  · rw [hf]
    exact fun r hne => captureWrite_ctx_of_ne hne _ _ _ _ _
  · rw [hf, hr]
    exact captureWrite_ctx ho
  · have hw : rewritten (frameShown x s.chip) x = if s.chip.ctl.mode = .run then withOwner x.data 2 else x.data := by
      rw [rewritten, guards_of_region (by simp [hr]), frameShown_ctl, hx]
      simp
    rw [writeAccess_placed (by rw [hb]; decide), hw, frameShown_completion hx hs, ← strikeAt_withFrm, hf, hb]
    simp only [unitsShown, hr, completionShown, hx, completed]

theorem withOwner_held (w : Word) : withOwner w 2 = wordNat (2 * 16384 + w.toNat % 16384) :=
  congrArg wordNat (Nat.add_comm _ _)

theorem namesOk_struck {c : Chip} {f : FrameUnit} {a : Nat} (hh : ∀ r, (c.withFrm f).held r = c.held r)
    (h : c.namesOk) : ((strikeAt a c).withFrm f).namesOk := by
  intro e
  have hp : (strikeAt a c).path.serial = c.path.serial := by rw [strikeAt_path]
  have he : ((strikeAt a c).withFrm f).held e = c.held e := hh e
  rw [he]
  exact ⟨(h e).1, fun v hv => hp.symm ▸ (h e).2 v hv⟩

theorem fixedVerdict_congr {c d : Chip} {e : Engine} {w : Word} (hu : d.ctl.unit = c.ctl.unit)
    (hh : d.hlth = c.hlth) : fixedVerdict d e w = fixedVerdict c e w := by
  unfold fixedVerdict Chip.trunk
  rw [hu, hh]

/-- A completion taken in RUN as it reaches memory, where no slot holds its descriptor (R39 to R41). -/
theorem writeAccess_taken {x : Access} {s : State} {e : Engine} {i : Nat} (hx : x.completion = some (e, i))
    (hs : s.chip.slotsAt e x.addr = []) (hrun : s.chip.ctl.mode = .run) (hn : s.chip.namesOk) :
    ∃ v, (writeAccess x s).mem = writeMasked s.mem x.addr 3 (wordNat (2 * 16384 + x.data.toNat % 16384)) ∧
      ((writeAccess x s).chip.held e).map (·.id) = (s.chip.held e).map (·.id) ++ [v.id] ∧
      v ∈ (writeAccess x s).chip.held e ∧
      (∀ r, r ≠ e → (writeAccess x s).chip.held r = s.chip.held r) ∧
      (∀ r, r ≠ e → (writeAccess x s).chip.ctx r = s.chip.ctx r) ∧
      v.index = i ∧ v.word0 = x.addr ∧ v.saved = wordNat (x.data.toNat % 16384) ∧ v.phase = .heldWaiting ∧
      ((s.chip.ctx e).index = some i → (writeAccess x s).chip.ctx e = Ctx.blank) ∧
      ((s.chip.ctx e).index ≠ some i → v.lo = none ∧ v.hi = none ∧ v.len = none ∧ v.octets = []) ∧
      ((s.chip.ctx e).index = some i →
        v.lo = (s.chip.ctx e).lo ∧ v.hi = (s.chip.ctx e).hi ∧ v.len = (s.chip.ctx e).len ∧
        ((∀ b, (s.chip.ctx e).buffer = some b →
          ¬ (x.addr + Config.memoryWords - b) % Config.memoryWords ≤ windowLast e) →
          v.octets = (s.chip.ctx e).octets)) ∧
      v.fixed = fixedVerdict s.chip e x.data := by
  obtain ⟨f, hh, hc, ⟨hindex, hlo, hhi, hlen, hoct⟩, hw⟩ := writeAccess_completion hx hs
  obtain ⟨⟨b, hb⟩, hids, hother, hctx⟩ :=
    takeCompletion_held (e := e) (i := i) (a := x.addr) (w := x.data) (namesOk_struck (a := x.addr) hh hn)
  have hrun' : ((strikeAt x.addr s.chip).withFrm f).ctl.mode = .run := (strikeAt_ctl_mode _ _).trans hrun
  have hch : ∀ r, ((strikeAt x.addr s.chip).withFrm f).held r = s.chip.held r := hh
  rw [completed, if_pos hrun', if_pos hrun, withOwner_held] at hw
  have hchip := congrArg State.chip hw
  rw [State.withChip_chip] at hchip
  have hx' : ((strikeAt x.addr s.chip).withFrm f).ctx e = (s.chip.withFrm f).ctx e := rfl
  rw [hx', hindex] at hctx
  rw [← hchip] at hb hids hother hctx
  refine ⟨_, congrArg State.mem hw, ?_, hb, fun r hr => (hother r hr).trans (hch r), fun r hr => ?_, rfl, rfl, rfl, rfl,
    fun hi => ?_, fun hi => ?_, fun hi => ?_, ?_⟩
  · rw [hids, hch]
    rfl
  · rw [hctx r, if_neg (by simp [hr])]
    exact hc r hr
  · rw [hctx e, if_pos ⟨rfl, hi⟩]
  · have hb : ¬ (((strikeAt x.addr s.chip).withFrm f).ctx e).index = some i := by rwa [hx', hindex]
    simp only [newSlot, if_neg hb]
    exact ⟨rfl, rfl, rfl, rfl⟩
  · have hb : (((strikeAt x.addr s.chip).withFrm f).ctx e).index = some i := by rwa [hx', hindex]
    simp only [newSlot, if_pos hb]
    exact ⟨hlo, hhi, hlen, hoct⟩
  · exact fixedVerdict_congr (strikeAt_ctl_unit _ _) (strikeAt_hlth _ _)

theorem completion_engine {c : Chip} {e : Engine} {a : BusAddr} {d : Word} {off : Nat}
    (hreg : c.classify a.toNat = .receive e off) (ho : off % 8 = 0) (hd : ownerField d = 1) :
    (classed c (engineMaster e) true a 3 d).completion = some (e, off / 8) := by
  have hm : masterEngine (engineMaster e) = some e := by cases e <;> rfl
  simp [Access.completion, classed, hreg, hm, fullWord, ho, hd]

/-- Settles O17: a completion on a free bus reaches memory and is passed on or taken. -/
theorem completionsAreTaken : Obligations.CompletionsAreTaken := by
  unfold Obligations.CompletionsAreTaken
  intro e a d off s hbus hreg hoff howner hslots
  have hx := completion_engine hreg hoff howner
  have hexec : s.chip.noSlotFor (classed s.chip (engineMaster e) true a 3 d) = false →
      exec (.receiveCompletion e a d) s = .next (writeAccess (classed s.chip (engineMaster e) true a 3 d) s) :=
    present_write hbus _ a 3 d
  refine ⟨fun hrun => ?_, fun hrun hlen hn _ => ?_⟩
  · obtain ⟨f, hh, hc, ⟨hindex, -⟩, hw⟩ := writeAccess_completion hx hslots
    have hslot : s.chip.noSlotFor (classed s.chip (engineMaster e) true a 3 d) = false := by
      rw [← Bool.not_eq_true, noSlotFor_iff]
      rintro ⟨_, _, -, hr, -⟩
      exact hrun hr
    have hrun' : ((strikeAt a.toNat s.chip).withFrm f).ctl.mode ≠ .run := by
      rw [show ((strikeAt a.toNat s.chip).withFrm f).ctl.mode = s.chip.ctl.mode from strikeAt_ctl_mode _ _]
      exact hrun
    obtain ⟨hframe, hheld⟩ := dropContext_frame e (off / 8) ((strikeAt a.toNat s.chip).withFrm f)
    have hctx := fun r => dropContext_ctx e r (off / 8) ((strikeAt a.toNat s.chip).withFrm f)
    rw [completed, if_neg hrun, if_neg (by exact hrun')] at hw
    refine ⟨_, (hexec hslot).trans (congrArg _ hw), wordWritten_of_mem rfl, ⟨rfl, rfl, rfl⟩, hframe,
      fun r => (hheld r).trans (hh r), fun r hr => ?_, fun hi => ?_⟩
    · exact (hctx r).trans (by rw [if_neg (by simp [hr])]; exact hc r hr)
    · exact (hctx e).trans (if_pos ⟨rfl, hindex.trans hi⟩)
  · obtain ⟨v, hmem, hids, hv, hheld, hctx, hi, ha, hsaved, hphase, hblank, hnone, hsome, hfixed⟩ :=
      writeAccess_taken hx hslots hrun hn
    refine ⟨_, v, hexec ?_, wordWritten_of_mem hmem, writeAccess_outside _ _, hids, hv, hheld, hctx, hi, ha, hsaved,
      hphase, hblank, hnone, ?_, ?_⟩
    · rw [← Bool.not_eq_true, noSlotFor_iff, hx]
      rintro ⟨r, k, hr, -, hl⟩
      cases hr
      exact absurd (hl.trans (List.length_filter_le _ _)) (Nat.not_le.mpr hlen)
    · cases e <;> exact hsome
    · rw [hfixed]
      cases e <;> rfl

/-! ### The end of a stretch (R12 to R14) -/

/-- WAIT holds no access, and RESET is asserted or released as `b` says. -/
def Chip.idle (b : Bool) (c : Chip) : Prop := c.path.bus = none ∧ c.resetAsserted = b

theorem idle_of_grew {b : Bool} {c d : Chip} (h : c.grew d) (hr : d.resetAsserted = c.resetAsserted) (hc : c.idle b) :
    d.idle b :=
  let ⟨_, _, hbus, _⟩ := h
  ⟨hbus.trans hc.1, hr.trans hc.2⟩

theorem formEntry_idle {b : Bool} {o : Owner} {p : Purpose} {w : Work} {c : Chip} (h : c.idle b) :
    (formEntry o p w c).idle b := by
  refine ⟨?_, (formEntry_resetAsserted _ _ _ _).trans h.2⟩
  unfold formEntry offer
  split
  · exact h.1
  · rw [putWaiting_bus]
    exact h.1

theorem formEvent_idle {b : Bool} {v : Event} {c : Chip} (h : c.idle b) : (formEvent v c).idle b := by
  have hr : ∀ {k n l d}, Chip.idle b d → (formRecord k n l d).idle b := fun hd =>
    idle_of_grew (formRecord_grew _ _ _ _) (formRecord_resetAsserted _ _ _ _) hd
  unfold formEvent
  split
  · exact formEntry_idle (hr h)
  · exact formEntry_idle (hr (hr h))

theorem formOverflow_idle {b : Bool} {c : Chip} (h : c.idle b) : (formOverflow c).idle b := formEvent_idle h

/-- No unit's work asserts RESET or WAIT. -/
theorem partKeeps_idle (b : Bool) : PartKeeps (Chip.idle b) where
  stn := id
  prt := id
  rct := id
  printerRec := id
  awaiting := id
  event := idle_of_grew (recordEvent_grew _ _) (recordEvent_resetAsserted _ _)
  feed _ _ h := formEntry_idle h
  hlth := id
  pins := id
  ctx h := by simpa [Chip.idle] using h
  slots _ h := by simpa [Chip.idle] using h
  slot _ h := by simpa [Chip.idle, Chip.withPath] using h
  entry _ h := formEntry_idle h
  withdraw := id
  struck := id
  ctl _ _ := id
  noticeMask := id
  relayout _ h := ite_keeps (formOverflow_idle (formEntry_idle h)) (formEntry_idle h)
  consume := id
  overflow := formOverflow_idle
  written := id

theorem exec_stretchEnd_over {pins : Octet} {s : State} {b : Stretch} (h : s.chip.path.bus = some b)
    (ho : s.chip.stretchOver b = true) : exec (.stretchEnd pins) s = .next (grantAsked s.chip.path.asking
      (performAccess b.access (s.withChip
        ((s.chip.withPins pins).withPath { s.chip.path with bus := none, asking := [] })))) :=
  congrArg Host.Outcome.next (endStretch_over (s := s.setPins pins) h ho)

/-- The part as the access of a stretch reaches memory: the bus is free, and what is asked for is taken off. -/
def Chip.granting (c : Chip) (pins : Octet) : Chip :=
  (c.withPins pins).withPath { c.path with bus := none, asking := [] }

theorem stretchOver_of_ended {c : Chip} {x : Access} {n : Nat} (h : n = 0 ∨ c.path.queue = [])
    (hs : c.noSlotFor x = false) : c.stretchOver { access := x, owed := n } = true := by
  rcases h with h | h <;> simp [Chip.stretchOver, h, hs]

theorem stretchOver_of_not_ended {c : Chip} {x : Access} {n : Nat} (h : ¬ (n = 0 ∨ c.path.queue = [])) :
    c.stretchOver { access := x, owed := n } = false := by
  obtain ⟨h1, h2⟩ := not_or.mp h
  simp [Chip.stretchOver, h1, h2]

theorem granting_eq {c : Chip} (h : c.path.asking = []) (pins : Octet) :
    c.granting pins = { c with pins := pins, path := { c.path with bus := none } } := by
  rw [Chip.granting, ← h]
  rfl

theorem completion_of_read {x : Access} (h : x.write = false) : x.completion = none := by
  refine Option.eq_none_iff_forall_ne_some.mpr fun ⟨e, k⟩ hx => ?_
  obtain ⟨_, _, _, hw, _⟩ := completion_region hx
  exact nomatch h.symm.trans hw

/-- No access that reaches memory, with a slot free where it is a completion, asserts RESET or WAIT. -/
theorem performAccess_idle {b : Bool} {x : Access} {s : State}
    (hs : ∀ e i, x.completion = some (e, i) → s.chip.ctl.mode = .run →
      ((strikeAt x.addr (frameShown x s.chip)).held e).length < Config.heldLimit)
    (h : s.chip.idle b) : (performAccess x s).chip.idle b := by
  unfold performAccess
  split
  · exact writeAccess_keeps (partKeeps_idle b) hs (congrArg ControlUnit.mode (frameShown_ctl _ _)) h
  · exact readShown_keeps (partKeeps_idle b) h

/-- Settles O13: while a cause holds nothing happens; then the access reaches memory on a bus made free. -/
theorem stretchEndsWhenNoCauseHolds : Obligations.StretchEndsWhenNoCauseHolds := by
  unfold Obligations.StretchEndsWhenNoCauseHolds
  intro pins s kept same
  have hstay : ∀ b, s.chip.path.bus = some b → s.chip.stretchOver b = false → same := fun b hb ho =>
    congrArg Host.Outcome.next (endStretch_held (s := s.setPins pins) hb ho)
  refine ⟨fun hb => congrArg Host.Outcome.next (endStretch_free (s := s.setPins pins) hb), fun x n hb => ?_⟩
  intro others ended
  have hend : ended → s.chip.noSlotFor x = false → exec (.stretchEnd pins) s = .next
      (grantAsked s.chip.path.asking (performAccess x (s.withChip (s.chip.granting pins)))) :=
    fun he hs => exec_stretchEnd_over hb (stretchOver_of_ended he hs)
  refine ⟨fun hn => hstay _ hb (stretchOver_of_not_ended hn), fun e k hx hr hl => ?_, fun he hw ha => ?_,
    fun he hw hreg hbe hm ha => ?_, fun e k he hx hr hl hs hn _ ha => ?_, fun p ha he hr hw hx => ?_⟩
  · exact hstay _ hb (stretchOver_of_noSlotFor (noSlotFor_iff.mpr ⟨e, k, hx, hr, hl⟩))
  · have hp := hend he (noSlotFor_of_completion (completion_of_read hw))
    rw [ha, grantAsked_nil, performAccess, if_neg (by simp [hw]), granting_eq ha] at hp
    exact ⟨_, hp, ⟨rfl, rfl⟩, rfl, rfl, (readShown_frame _ _ _).1⟩
  · have hp := hend he (noSlotFor_of_completion (completion_of_master hm))
    rw [ha, grantAsked_nil, performAccess, if_pos hw, writeAccess_plain hbe hreg hm, granting_eq ha] at hp
    exact ⟨_, hp, ⟨rfl, rfl⟩, rfl, rfl, rfl⟩
  · obtain ⟨_, _, _, hw, _⟩ := completion_region hx
    have hslot : s.chip.noSlotFor x = false := by
      rw [← Bool.not_eq_true, noSlotFor_iff, hx]
      rintro ⟨r, _, hr', -, hl'⟩
      cases hr'
      exact absurd hl' (Nat.not_le.mpr hl)
    have hp := hend he hslot
    rw [ha, grantAsked_nil] at hp
    have hidle : (performAccess x (s.withChip (s.chip.granting pins))).chip.idle s.chip.resetAsserted := by
      refine performAccess_idle (fun r i hx' _ => ?_) ⟨rfl, rfl⟩
      cases hx.symm.trans hx'
      have hall : ((s.chip.held e).filter fun v => !inRun v.word0 8 x.addr) = s.chip.held e := by
        refine List.filter_eq_self.mpr fun v hv => ?_
        simpa using List.filter_eq_nil_iff.mp hs v hv
      have hl' : (s.chip.held e).length < Config.heldLimit := hall ▸ hl
      rw [Chip.held_of_frm (strikeAt_frm _ _), State.withChip_chip, frameShown_completion hx (by exact hs),
        captureWrite_held]
      exact hl'
    obtain ⟨v, hmem, hids, hv, -, -, hi, ha, -, hphase, -⟩ :=
      writeAccess_taken (s := s.withChip (s.chip.granting pins)) hx hs hr hn
    rw [performAccess, if_pos hw] at hp hidle
    obtain ⟨hd, hpd, hfc⟩ := writeAccess_outside x (s.withChip (s.chip.granting pins))
    exact ⟨_, v, hp, ⟨hpd, hfc⟩, hd, hmem, hidle.1, hv, hi, ha, hphase, hids⟩
  · have hx : x.completion = none := Option.eq_none_iff_forall_ne_some.mpr fun ⟨e, k⟩ => hx e k
    have hp := hend he (noSlotFor_of_completion hx)
    obtain ⟨hbus, hreset⟩ : (performAccess x (s.withChip (s.chip.granting pins))).chip.idle false :=
      performAccess_idle (fun _ _ hx' _ => nomatch hx.symm.trans hx') ⟨rfl, hr⟩
    refine ⟨performAccess x (s.withChip (s.chip.granting pins)), ?_, hp.trans ?_⟩
    · exact exec_stretchEnd_over (b := { access := x, owed := n }) hb
        (stretchOver_of_ended he (noSlotFor_of_completion hx))
    · rw [ha, grantAsked_free hbus, grantAsked_nil]
      have hb := present_free hreset hbus p.master true p.addr p.be p.data
      rw [← hw] at hb
      exact hb.symm.trans (by rw [hw]; rfl)

end Sys2Proof.Machine

/-! PROOF. One private cycle: a deposit performed, and a fetch of the frame unit's taken (R9, R43, R45, R131). -/

namespace Sys2Proof.Machine

/-- The part as its unit acts on the oldest entry: the entry has left, the rest of the queue is `q`. -/
def Chip.popped (pins : Octet) (q : List Entry) (c : Chip) : Chip :=
  { c with
    pins := pins
    path := { c.path with queue := q, bus := c.path.bus.map fun b => { b with owed := b.owed - 1 } } }

theorem privateCycle_empty {s : State} (pins : Octet) (h : s.chip.path.queue = []) :
    exec (.privateCycle pins) s = .next (s.setPins pins) := by
  have hp : privateCycle (s.setPins pins) = s.setPins pins := by
    unfold privateCycle
    rw [show (s.setPins pins).chip.path.queue = [] from h]
  exact congrArg Host.Outcome.next hp

theorem dropOldest_popped {s : State} {e : Entry} {q : List Entry} (pins : Octet) (h : s.chip.path.queue = e :: q) :
    dropOldest (s.setPins pins).chip = s.chip.popped pins q := by
  have hd : s.chip.path.queue.drop 1 = q := by rw [h, List.drop_one, List.tail_cons]
  rw [← hd]
  rfl

theorem privateCycle_deposit {s : State} {e : Entry} {q : List Entry} {a : Nat} {ws : List (Word × Bool)} (pins : Octet)
    (h : s.chip.path.queue = e :: q) (hw : e.work = .deposit a ws) : exec (.privateCycle pins) s =
      .next ((s.withMem (writeRun s.mem a ws ws.length)).withChip (depositDone e.purpose (s.chip.popped pins q))) := by
  have hp : privateCycle (s.setPins pins) = (s.withMem (writeRun s.mem a ws ws.length)).withChip
      (depositDone e.purpose (dropOldest (s.setPins pins).chip)) := by
    unfold privateCycle
    rw [show (s.setPins pins).chip.path.queue = e :: q from h]
    simp only [hw]
    rfl
  rw [dropOldest_popped pins h] at hp
  exact congrArg Host.Outcome.next hp

theorem privateCycle_fetch {s : State} {e : Entry} {q : List Entry} {a n : Nat} (pins : Octet)
    (h : s.chip.path.queue = e :: q) (hw : e.work = .fetch a n) : exec (.privateCycle pins) s =
      .next (s.withChip (fetchDone e.purpose (readRun s.mem a n) (s.chip.popped pins q))) := by
  have hp : privateCycle (s.setPins pins) = s.withChip
      (fetchDone e.purpose (readRun s.mem a n) (dropOldest (s.setPins pins).chip)) := by
    unfold privateCycle
    rw [show (s.setPins pins).chip.path.queue = e :: q from h]
    simp only [hw]
    rfl
  rw [dropOldest_popped pins h] at hp
  exact congrArg Host.Outcome.next hp

/-! ### Deposits (R9, R26, R45, R176, R179) -/

/-- Outside the words it writes a run leaves memory as it is (R9). -/
theorem readOctet_writeRun_of_ne {m : List Host.Cell} {a k n : Nat} {ws : List (Word × Bool)}
    (h : ∀ j < ws.length, (ws.getD j (0, true)).2 = false → k / 2 ≠ (a + j) % Config.memoryWords) :
    readOctet (writeRun m a ws n) k = readOctet m k := by
  induction ws generalizing m a n with
  | nil => rfl
  | cons w ws ih =>
    obtain ⟨d, b⟩ := w
    have ht : ∀ j < ws.length, (ws.getD j (0, true)).2 = false → k / 2 ≠ (a + 1 + j) % Config.memoryWords :=
      fun j hj hb => by
        rw [Nat.add_assoc, Nat.add_comm 1 j]
        exact h (j + 1) (by simpa using hj) (by simpa using hb)
    cases b
    · have h0 : k / 2 ≠ a % Config.memoryWords := h 0 (by simp) rfl
      cases n with
      | zero => rfl
      | succ n =>
        rw [writeRun, ih ht, writeWord, readOctet_writeMasked, if_neg (by omega), if_neg (by omega)]
    · rw [writeRun, ih ht]

theorem readWord_writeRun_of_ne {m : List Host.Cell} {a x n : Nat} {ws : List (Word × Bool)}
    (h : ∀ j < ws.length, (ws.getD j (0, true)).2 = false → x % Config.memoryWords ≠ (a + j) % Config.memoryWords) :
    readWord (writeRun m a ws n) x = readWord m x := by
  rw [readWord, readWord, readOctet_writeRun_of_ne, readOctet_writeRun_of_ne]
  · intro j hj hb
    have := h j hj hb
    omega
  · intro j hj hb
    have := h j hj hb
    omega

/-- A run no longer than memory writes each of its unstruck words (R9). -/
theorem readWord_writeRun {m : List Host.Cell} {a n j : Nat} {ws : List (Word × Bool)} (hl : ws.length ≤ 16)
    (hn : ws.length ≤ n) (hj : j < ws.length) (hb : (ws.getD j (0, true)).2 = false) :
    readWord (writeRun m a ws n) (a + j) = (ws.getD j (0, true)).1 := by
  induction ws generalizing m a n j with
  | nil => exact absurd hj (Nat.not_lt_zero j)
  | cons w ws ih =>
    obtain ⟨d, b⟩ := w
    rw [List.length_cons] at hl hn hj
    cases j with
    | zero =>
      cases hb
      cases n with
      | zero => omega
      | succ n =>
        rw [writeRun, readWord_writeRun_of_ne, Nat.add_zero, readWord_writeWord_self]
        · rfl
        · intro j hj' _
          simp only [Config.memoryWords]
          omega
    | succ j =>
      rw [show a + (j + 1) = a + 1 + j by omega]
      cases b
      · cases n with
        | zero => omega
        | succ n =>
          rw [writeRun]
          exact ih (by omega) (by omega) (by omega) (by simpa using hb)
      · rw [writeRun]
        exact ih (by omega) (by omega) (by omega) (by simpa using hb)

theorem noticeLow_iff {l : List EvClass} {m : Octet} :
    noticeLow l m = true ↔ ∃ k : EvClass, 0 < l.count k ∧ maskHas m k = true := by
  simp [noticeLow, List.count_pos_iff]

/-- What a private cycle of a deposit does: its unstruck words are written, and its unit is told (R9). -/
theorem deposit_performed {s : State} {e : Entry} {q : List Entry} {a : Nat} {ws : List (Word × Bool)} (pins : Octet)
    (h : s.chip.path.queue = e :: q) (hw : e.work = .deposit a ws) (hl : ws.length ≤ 16) :
    ∃ t, exec (.privateCycle pins) s = .next t ∧ s.writeKept t ∧
      (∀ j < ws.length, (ws.getD j (0, true)).2 = false → readWord t.mem (a + j) = (ws.getD j (0, true)).1) ∧
      (∀ k, (∀ j < ws.length, (ws.getD j (0, true)).2 = false → k / 2 ≠ (a + j) % 1048576) →
        readOctet t.mem k = readOctet s.mem k) ∧
      t.chip = depositDone e.purpose (s.chip.popped pins q) :=
  ⟨_, privateCycle_deposit pins h hw, ⟨rfl, rfl, rfl⟩, fun _ hj hb => readWord_writeRun hl (Nat.le_refl _) hj hb,
    fun _ hk => readOctet_writeRun_of_ne hk, rfl⟩

/-- A status word performed frees its slot (R45). -/
theorem dropSlot_frame (e : Engine) (id : Nat) (c : Chip) :
    dropSlot e id c = { c with frm := (dropSlot e id c).frm } ∧
      (dropSlot e id c).held e = (c.held e).filter (fun v => v.id ≠ id) ∧
      (∀ r, r ≠ e → (dropSlot e id c).held r = c.held r) ∧ ∀ r, (dropSlot e id c).ctx r = c.ctx r := by
  refine ⟨by cases e <;> rfl, ?_, fun r hr => ?_, fun r => putHeld_ctx _ _ _ r⟩
  · rw [dropSlot, putHeld_held, if_pos rfl]
  · rw [dropSlot, putHeld_held, if_neg hr]

/-! ### What follows fetched data (R43) -/

theorem formFetch_worksOf (o r : Owner) (p : Purpose) (a n : Nat) (c : Chip) :
    (formFetch o p a n c).worksOf r = c.worksOf r ++ if o = r then [.fetch a n] else [] := by
  have h := offer_worksOf (e := { id := c.path.serial, owner := o, purpose := p, work := .fetch a n })
    (c := c.withPath { c.path with serial := c.path.serial + 1 }) (takenEntry_eq (by simp)) r
  exact h

theorem formFetch_grew (o : Owner) (p : Purpose) (a n : Nat) (c : Chip) : c.grew (formFetch o p a n c) := by
  obtain ⟨hq, hw, hb, ha⟩ := offer_grew { id := c.path.serial, owner := o, purpose := p, work := .fetch a n }
    (c.withPath { c.path with serial := c.path.serial + 1 })
  exact ⟨hq, fun r => by have := hw r; cases r <;> exact this, hb, ha⟩

/-- A frame's place at evaluation forms at most one fetch, of the frame unit (R42). -/
theorem startEvaluation_formed (e : Engine) (c : Chip) : c.grew (startEvaluation e c) ∧
    (∀ o, o ≠ .frame → c.formed (startEvaluation e c) o []) ∧
    ((startEvaluation e c).worksOf .frame).length ≤ (c.worksOf .frame).length + 1 := by
  have hid : c.grew c ∧ (∀ o, o ≠ .frame → c.formed c o []) ∧
      (c.worksOf .frame).length ≤ (c.worksOf .frame).length + 1 :=
    ⟨grew_refl c, fun o _ => (List.append_nil _).symm, Nat.le_succ _⟩
  have hput : ∀ l r, (c.putHeld e l).worksOf r = c.worksOf r := fun l r => by cases e <;> rfl
  have hgrew : ∀ l, c.grew (c.putHeld e l) := fun l => by cases e <;> exact grew_refl c
  unfold startEvaluation
  split
  · exact hid
  · next v _ =>
    split
    · exact hid
    · split
      · exact hid
      · next p a n _ =>
        refine ⟨grew_trans (hgrew _) (formFetch_grew _ _ _ _ _), fun o ho => ?_, ?_⟩
        · rw [Chip.formed, formFetch_worksOf, hput, if_neg (Ne.symm ho)]
        · rw [formFetch_worksOf, hput, if_pos rfl, List.length_append]
          rfl

/-- A fetch's data taken by the slot of one name: the slot is filled and no longer fetching, and at most one fetch
of the frame unit follows (R43). -/
theorem fetched_filled {e : Engine} {f : Slot → Slot} {c : Chip} {v : Slot} (hf : ∀ v, (f v).id = v.id)
    (hn : ((c.held e).map (·.id)).Nodup) (hv : v ∈ c.held e) :
    (fetched e v.id f c = { c with path := (fetched e v.id f c).path, frm := (fetched e v.id f c).frm }) ∧
      c.grew (fetched e v.id f c) ∧ (∀ o, o ≠ .frame → c.formed (fetched e v.id f c) o []) ∧
      ((fetched e v.id f c).worksOf .frame).length ≤ (c.worksOf .frame).length + 1 ∧
      (∀ r, (fetched e v.id f c).ctx r = c.ctx r) ∧
      (∀ r, r ≠ e → (fetched e v.id f c).held r = c.held r) ∧
      ((fetched e v.id f c).held e).map (·.id) = (c.held e).map (·.id) ∧
      ∃ b, { f v with fetching := b } ∈ (fetched e v.id f c).held e := by
  unfold fetched
  set l := (c.held e).map fun w => if w.id = v.id then { f w with fetching := false } else w with hl
  have hids : l.map (·.id) = (c.held e).map (·.id) := by
    rw [hl, List.map_map]
    refine List.map_congr_left fun w _ => ?_
    simp only [Function.comp]
    split
    · exact hf w
    · rfl
  have hh : (c.putHeld e l).held e = l := by rw [putHeld_held, if_pos rfl]
  have hnd : (((c.putHeld e l).held e).map (·.id)).Nodup := by rwa [hh, hids]
  have hput : ∀ r, (c.putHeld e l).worksOf r = c.worksOf r := fun r => by cases e <;> rfl
  obtain ⟨hgrew, hformed, hlen⟩ := startEvaluation_formed e (c.putHeld e l)
  refine ⟨?_, grew_trans (by cases e <;> exact grew_refl c) hgrew, fun o ho => ?_, ?_, fun r => ?_,
    fun r hr => ?_, ?_, ?_⟩
  · rw [startEvaluation_frame]
    cases e <;> rfl
  · rw [Chip.formed, ← hput]
    exact hformed o ho
  · rwa [hput] at hlen
  · rw [startEvaluation_ctx, putHeld_ctx]
  · rw [startEvaluation_held_of_ne hr, putHeld_held, if_neg hr]
  · rw [startEvaluation_ids hnd, hh, hids]
  · obtain ⟨g, hg⟩ := startEvaluation_held hnd
    have hm : { f v with fetching := false } ∈ l := by
      rw [hl]
      exact List.mem_map.mpr ⟨v, hv, if_pos rfl⟩
    rw [hg, hh]
    exact ⟨g { f v with fetching := false }, List.mem_map.mpr ⟨_, hm, rfl⟩⟩

/-! ### What fetched words fill (R43, R131) -/

theorem readRun_getD (m : List Host.Cell) (a : Nat) {n j : Nat} (h : j < n) :
    (readRun m a n).getD j 0 = readWord m (a + j) := by
  induction n generalizing a j with
  | zero => exact absurd h (Nat.not_lt_zero j)
  | succ n ih =>
    cases j with
    | zero => rfl
    | succ j =>
      have := ih (a + 1) (Nat.lt_of_succ_lt_succ h)
      rw [Nat.add_assoc, Nat.add_comm 1 j] at this
      exact this

/-- A pair frame's kind is told by octets 12 and 13 alone. -/
theorem knownNotLink_congr {u : UnitRec} {v w : Slot} (h12 : tget none w.octets 12 = tget none v.octets 12)
    (h13 : tget none w.octets 13 = tget none v.octets 13) : w.knownNotLink u = v.knownNotLink u := by
  simp only [Slot.knownNotLink, Slot.wordCaptured, Slot.link, Slot.captured, Slot.octet, Nat.reduceMul, Nat.reduceAdd,
    h12, h13]
  rfl

theorem fillWord_with (u : UnitRec) (e : Engine) (k : Nat) (d : Word) (v : Slot) :
    fillWord u e k d v = { v with octets := (fillWord u e k d v).octets } := by
  unfold fillWord
  split <;> rfl

theorem fillWords_with (u : UnitRec) (e : Engine) (k : Nat) (ds : List Word) (v : Slot) :
    fillWords u e k ds v = { v with octets := (fillWords u e k ds v).octets } := by
  induction ds generalizing k v with
  | nil => rfl
  | cons d ds ih =>
    rw [fillWords, ih, fillWord_with]

/-- An octet filled in where it lacks. -/
theorem tget_fill (t o : Table (Option Octet)) (i j : Nat) (x : Octet) (h : tget none o i = tget none t i) :
    tget none (if (tget none t i).isSome = true then o else tset none o i (some x)) j =
      if j = i ∧ (tget none t j).isSome = false then some x else tget none o j := by
  by_cases hj : j = i
  · subst hj
    by_cases hs : (tget none t j).isSome = true <;> simp [hs]
  · split <;> simp [hj, tget_tset_of_ne]

/-- One word filled in: its octets where they are not captured, unless the frame is known to be no link frame by
then (R43). -/
theorem fillWord_octet (u : UnitRec) (e : Engine) (k : Nat) (d : Word) (v : Slot) (j : Nat) :
    tget none (fillWord u e k d v).octets j =
      if (tget none v.octets j).isSome = true ∨ (e = .pair ∧ 7 ≤ k ∧ v.knownNotLink u = true) then tget none v.octets j
      else if j = 2 * k then some (hiOctet d)
      else if j = 2 * k + 1 then some (loOctet d)
      else tget none v.octets j := by
  unfold fillWord
  by_cases hl : e = .pair ∧ 7 ≤ k ∧ v.knownNotLink u = true
  · rw [if_pos hl, if_pos (.inr hl)]
  · have h1 : tget none (if v.captured (2 * k) then v.octets else captureOctet v.octets (2 * k) (hiOctet d))
        (2 * k + 1) = tget none v.octets (2 * k + 1) := by
      split
      · rfl
      · exact tget_tset_of_ne _ _ _ (by omega)
    rw [if_neg hl]
    refine (tget_fill v.octets _ (2 * k + 1) j (loOctet d) h1).trans ?_
    rw [show tget none (if v.captured (2 * k) then v.octets else captureOctet v.octets (2 * k) (hiOctet d)) j = _ from
      tget_fill v.octets v.octets (2 * k) j (hiOctet d) rfl]
    by_cases hj : j = 2 * k + 1
    · subst hj
      cases tget none v.octets (2 * k + 1) <;> simp [hl]
    · cases tget none v.octets j <;> simp [hl, hj]

theorem fillWord_octet_of_ne (u : UnitRec) (e : Engine) {k : Nat} (d : Word) (v : Slot) {j : Nat}
    (h0 : j ≠ 2 * k) (h1 : j ≠ 2 * k + 1) : tget none (fillWord u e k d v).octets j = tget none v.octets j := by
  rw [fillWord_octet, if_neg h0, if_neg h1, ite_self]

/-- What the header words of a fetch fill: the octets of the words it holds that are not captured, and of a pair
frame that is then known to be no link frame none after word 6 (R43). -/
theorem fillWords_octet (u : UnitRec) (e : Engine) (k : Nat) (ds : List Word) (v : Slot) (j : Nat) :
    tget none (fillWords u e k ds v).octets j =
      if (tget none v.octets j).isSome = true ∨ j < 2 * k ∨ 2 * (k + ds.length) ≤ j ∨
          (14 ≤ j ∧ e = .pair ∧ (fillWords u e k ds v).knownNotLink u = true) then tget none v.octets j
      else if j % 2 = 0 then some (hiOctet (ds.getD (j / 2 - k) 0))
      else some (loOctet (ds.getD (j / 2 - k) 0)) := by
  induction ds generalizing k v j with
  | nil =>
    have h : j < 2 * k ∨ 2 * (k + ([] : List Word).length) ≤ j := by
      simp only [List.length_nil]
      omega
    rw [if_pos (by tauto)]
    rfl
  | cons d ds ih =>
    have hkeep : 7 ≤ k →
        (fillWords u e (k + 1) ds (fillWord u e k d v)).knownNotLink u = v.knownNotLink u := fun hk => by
      have ht : ∀ i, i < 14 → tget none (fillWords u e (k + 1) ds (fillWord u e k d v)).octets i =
          tget none v.octets i := fun i hi => by
        rw [ih (k + 1) (fillWord u e k d v) i, if_pos (.inr (.inl (by omega))),
          fillWord_octet_of_ne u e d v (by omega) (by omega)]
      exact knownNotLink_congr (ht 12 (by decide)) (ht 13 (by decide))
    rw [fillWords, ih (k + 1) (fillWord u e k d v) j, List.length_cons]
    generalize (fillWords u e (k + 1) ds (fillWord u e k d v)).knownNotLink u = b at hkeep ⊢
    rcases (by omega : j < 2 * k ∨ 2 * k + 2 ≤ j ∨ j = 2 * k ∨ j = 2 * k + 1) with h | h | h | h
    · rw [if_pos (.inr (.inl (by omega))), if_pos (.inr (.inl h)),
        fillWord_octet_of_ne u e d v (by omega) (by omega)]
    · have hd : (d :: ds).getD (j / 2 - k) 0 = ds.getD (j / 2 - (k + 1)) 0 := by
        rw [show j / 2 - k = j / 2 - (k + 1) + 1 by omega]
        rfl
      have h1 : ¬ j < 2 * (k + 1) := by omega
      have h2 : ¬ j < 2 * k := by omega
      rw [fillWord_octet_of_ne u e d v (by omega) (by omega), hd, Nat.add_right_comm k 1]
      simp only [h1, h2, Nat.add_assoc]
    · subst h
      have hj : 14 ≤ 2 * k ↔ 7 ≤ k := by omega
      have hlt : ¬ 2 * (k + (ds.length + 1)) ≤ 2 * k := by omega
      rw [if_pos (.inr (.inl (by omega))), fillWord_octet]
      by_cases hk : 7 ≤ k
      · simp [hk, hkeep hk, hlt, hj]
      · simp [hk, hlt, hj]
    · subst h
      have hj : 14 ≤ 2 * k + 1 ↔ 7 ≤ k := by omega
      have hlt : ¬ 2 * (k + (ds.length + 1)) ≤ 2 * k + 1 := by omega
      have hdiv : (2 * k + 1) / 2 - k = 0 := by omega
      rw [if_pos (.inr (.inl (by omega))), fillWord_octet]
      by_cases hk : 7 ≤ k
      · simp [hk, hkeep hk, hlt, hj, hdiv]
      · simp [hk, hlt, hj, hdiv]

/-! ### The frame unit's fetches performed -/

/-- The part of a private cycle's state that a frame unit's fetch is told in: `w` is the slot filled. -/
theorem frame_fetch_performed {s : State} {e : Entry} {q : List Entry} {a n : Nat} {en : Engine} {v : Slot}
    {f : Slot → Slot} (pins : Octet) (h : s.chip.path.queue = e :: q) (hw : e.work = .fetch a n)
    (hp : fetchDone e.purpose (readRun s.mem a n) (s.chip.popped pins q) =
      fetched en v.id f (s.chip.popped pins q))
    (hf : ∀ v, (f v).id = v.id) (hn : s.chip.namesOk) (hv : v ∈ s.chip.held en) :
    let c := s.chip.popped pins q
    ∃ t w, exec (.privateCycle pins) s = .next t ∧ s.outsideKept t ∧
      t.chip = { c with path := t.chip.path, frm := t.chip.frm } ∧ c.grew t.chip ∧
      (∀ o, o ≠ .frame → c.formed t.chip o []) ∧
      (t.chip.worksOf .frame).length ≤ (c.worksOf .frame).length + 1 ∧ (∀ r, t.chip.ctx r = s.chip.ctx r) ∧
      (∀ r, r ≠ en → t.chip.held r = s.chip.held r) ∧
      (t.chip.held en).map (·.id) = (s.chip.held en).map (·.id) ∧
      w ∈ t.chip.held en ∧ w.id = v.id ∧ w = { f v with fetching := w.fetching } := by
  have he := privateCycle_fetch pins h hw
  rw [hp] at he
  obtain ⟨hframe, hgrew, hformed, hlen, hctx, hother, hids, b, hb⟩ :=
    fetched_filled (c := s.chip.popped pins q) hf (hn en).1 hv
  exact ⟨_, _, he, ⟨rfl, rfl, rfl, rfl⟩, hframe, hgrew, hformed, hlen, hctx, hother, hids, hb, hf v, rfl⟩

end Sys2Proof.Machine

/-! PROOF. One private cycle: LOAD's fetches taken (R27), and the private cycle's obligation. -/

namespace Sys2Proof.Machine

/-! ### LOAD's first fetch: the gate, the masks, the unit record's first words -/

theorem staged_stage (c : Chip) (key k : Nat) (d : Word) :
    (c.stage key d).staged k = if k = key then d else c.staged k :=
  tget_tset _ _ _ _ _

theorem pendingCommits_eq_nil {k : ControlUnit} (h : k.pendingCommits = []) :
    k.pendingHealth = none ∧ k.pendingPrint = none ∧ k.pendingAging = none := by
  simp only [ControlUnit.pendingCommits, List.append_eq_nil_iff, Option.toList_eq_nil_iff, Option.map_eq_none_iff] at h
  obtain ⟨⟨⟨⟨⟨⟨hh, hp⟩, -⟩, -⟩, ha⟩, -⟩, -⟩ := h
  exact ⟨hh, hp, ha⟩

/-- With no commit pending a write of the update gate only sets the gate (R16, R22). -/
theorem gateWrite_of_none {g : Give} {d : Word} {c : Chip} (h : c.ctl.pendingCommits = []) :
    ∃ l t p r, gateWrite g d c = c.withCtl { c.ctl with
        gateClosed := decide (d ≠ 0)
        pendingLines := l
        pendingTimers := t
        pendingPrinters := p
        pendingReactions := r } ∧
      (gateWrite g d c).ctl.pendingCommits = [] := by
  obtain ⟨hh, hp, ha⟩ := pendingCommits_eq_nil h
  unfold gateWrite
  by_cases hd : d = 0
  · rw [if_pos hd, h, decide_eq_false (by simpa using hd)]
    refine ⟨[], [], [], [], ?_, rfl⟩
    simp only [List.foldl_nil, dropPending]
    rw [← hh, ← hp, ← ha]
    rfl
  · rw [if_neg hd, decide_eq_true hd]
    exact ⟨_, _, _, _, rfl, h⟩

/-- LOAD takes the words of the unit record but the last into staging only (R18, R27). -/
theorem loadRun_unit {g : Give} {off : Nat} {ds : List Word} {t : LoadTally} {c : Chip} (h1 : 32 ≤ off)
    (h2 : off + ds.length ≤ 47) : ∃ st, loadRun g off ds t c = (t, c.withCtl { c.ctl with staging := st }) ∧
      ∀ k, tget 0 st k = if off ≤ k ∧ k < off + ds.length then ds.getD (k - off) 0 else c.staged k := by
  induction ds generalizing off c with
  | nil =>
    refine ⟨c.ctl.staging, rfl, fun k => ?_⟩
    rw [if_neg (by simp only [List.length_nil]; omega)]
    rfl
  | cons d ds ih =>
    rw [List.length_cons] at h2
    have hr : recordAt c.ctl.unit off = some (.unit, off - 32) := by
      unfold recordAt
      rw [if_neg (by omega), if_pos (by omega)]
    have hw : loadWord g off d t c = (t, c.stage off d) := by
      have hk : stagingKey .unit (off - 32) = off := by
        simp only [stagingKey]
        omega
      rw [loadWord, if_neg (by omega), if_neg (by omega), if_neg (by omega), hr]
      simp only [hk, recordLength]
      rw [if_neg (by omega)]
    obtain ⟨st, hst, hk⟩ := ih (off := off + 1) (c := c.stage off d) (by omega) (by omega)
    refine ⟨st, ?_, fun k => ?_⟩
    · rw [loadRun, hw]
      exact hst
    · rw [hk, staged_stage, List.length_cons]
      rcases (by omega : k < off ∨ k = off ∨ off < k) with h | h | h
      · rw [if_neg (by omega), if_neg (by omega), if_neg (by omega)]
      · subst h
        simp
      · have hd : (d :: ds).getD (k - off) 0 = ds.getD (k - (off + 1)) 0 := by
          rw [show k - off = k - (off + 1) + 1 by omega]
          rfl
        rw [hd, if_neg (c := k = off) (by omega)]
        exact if_congr (by omega) rfl rfl

theorem loadWord_gap {g : Give} {off : Nat} {d : Word} {t : LoadTally} {c : Chip} (h1 : 29 ≤ off) (h2 : off < 32) :
    loadWord g off d t c = (t, c) := by
  have hr : recordAt c.ctl.unit off = none := if_pos h2
  rw [loadWord, if_neg (by omega), if_neg (by omega), if_neg (by omega), hr]

/-- LOAD takes words 26 to 28 as the gate and the masks, and of words 29 to 31 nothing (R16, assumption 43). -/
theorem loadRun_fixed (g : Give) (d0 d1 d2 d3 d4 d5 : Word) (ds : List Word) (t : LoadTally) (c : Chip) :
    loadRun g 26 (d0 :: d1 :: d2 :: d3 :: d4 :: d5 :: ds) t c =
      loadRun g 32 ds t (recordMaskWrite d2 (noticeMaskWrite d1 (gateWrite g d0 c))) := by
  have h0 : loadWord g 26 d0 t c = (t, gateWrite g d0 c) := rfl
  have h1 : loadWord g 27 d1 t (gateWrite g d0 c) = (t, noticeMaskWrite d1 (gateWrite g d0 c)) := rfl
  have h2 : loadWord g 28 d2 t (noticeMaskWrite d1 (gateWrite g d0 c)) =
    (t, recordMaskWrite d2 (noticeMaskWrite d1 (gateWrite g d0 c))) := rfl
  simp only [loadRun, h0, h1, h2, loadWord_gap (Nat.le_refl 29) (by decide), Nat.reduceAdd,
    loadWord_gap (g := g) (off := 30) (by decide) (by decide),
    loadWord_gap (g := g) (off := 31) (by decide) (by decide)]

/-- The gate and the masks written one after the other, with no commit pending (R16, R22). -/
theorem masks_written {g : Give} {c : Chip} (d0 d1 d2 : Word) (h : c.ctl.pendingCommits = []) :
    ∃ l tm p r, recordMaskWrite d2 (noticeMaskWrite d1 (gateWrite g d0 c)) =
        { c with
          ctl := { c.ctl with
            gateClosed := decide (d0 ≠ 0)
            noticeMask := loOctet d1
            recordMask := loOctet d2
            pendingLines := l
            pendingTimers := tm
            pendingPrinters := p
            pendingReactions := r }
          evt := { c.evt with notice := noticeLow c.evt.unread (loOctet d1) } } ∧
      (recordMaskWrite d2 (noticeMaskWrite d1 (gateWrite g d0 c))).ctl.pendingCommits = [] := by
  obtain ⟨l, tm, p, r, hg, hpend⟩ := gateWrite_of_none (g := g) (d := d0) h
  refine ⟨l, tm, p, r, ?_, hpend⟩
  rw [hg]
  rfl

/-- LOAD's first fetch taken (R27): the gate, the masks, and the unit record's first ten words into staging. -/
theorem loadRun_first {g : Give} {t : LoadTally} {m : List Host.Cell} {a : Nat} {c : Chip}
    (h : c.ctl.pendingCommits = []) :
    ∃ st l tm p r, loadRun g 26 (readRun m a 16) t c = (t,
        { c with
          ctl := { c.ctl with
            staging := st
            gateClosed := decide (readWord m a ≠ 0)
            noticeMask := loOctet (readWord m (a + 1))
            recordMask := loOctet (readWord m (a + 2))
            pendingLines := l
            pendingTimers := tm
            pendingPrinters := p
            pendingReactions := r }
          evt := { c.evt with notice := noticeLow c.evt.unread (loOctet (readWord m (a + 1))) } }) ∧
      (loadRun g 26 (readRun m a 16) t c).2.ctl.pendingCommits = [] ∧
      ∀ k, tget 0 st k = if 32 ≤ k ∧ k < 42 then readWord m (a + (k - 26)) else c.staged k := by
  have hrun : readRun m a 16 = readWord m a :: readWord m (a + 1) :: readWord m (a + 2) :: readWord m (a + 3) ::
      readWord m (a + 4) :: readWord m (a + 5) :: readRun m (a + 6) 10 := rfl
  have hdata : ∀ k, 32 ≤ k → k < 42 → (readRun m (a + 6) 10).getD (k - 32) 0 = readWord m (a + (k - 26)) :=
    fun k h1 h2 => by rw [readRun_getD _ _ (by omega), show a + 6 + (k - 32) = a + (k - 26) by omega]
  have hlen : (readRun m (a + 6) 10).length = 10 := readRun_length _ _ _
  rw [hrun, loadRun_fixed]
  generalize readRun m (a + 6) 10 = ds at hdata hlen
  generalize readWord m a = d0
  generalize readWord m (a + 1) = d1
  generalize readWord m (a + 2) = d2
  obtain ⟨l, tm, p, r, hm, hpend⟩ := masks_written (g := g) d0 d1 d2 h
  rw [hm] at hpend ⊢
  obtain ⟨st, hst, hk⟩ := loadRun_unit (g := g) (off := 32) (ds := ds) (t := t) (Nat.le_refl 32) (by omega)
  rw [hst]
  refine ⟨st, l, tm, p, r, rfl, hpend, fun k => (hk k).trans ?_⟩
  rw [hlen]
  by_cases hr : 32 ≤ k ∧ k < 42
  · rw [if_pos hr, if_pos hr, hdata k hr.1 hr.2]
  · rw [if_neg hr, if_neg hr]
    rfl

/-! ### LOAD's fetches from word 48 on: the records' words -/

/-- What LOAD's records from word 48 on leave as it is. -/
structure LoadKept (c d : Chip) : Prop where
  unit : d.ctl.unit = c.ctl.unit
  mode : d.ctl.mode = c.ctl.mode
  command : d.ctl.command = c.ctl.command
  gate : d.ctl.gateClosed = c.ctl.gateClosed
  noticeMask : d.ctl.noticeMask = c.ctl.noticeMask
  recordMask : d.ctl.recordMask = c.ctl.recordMask
  hlth : d.hlth = c.hlth
  held : ∀ e, d.held e = c.held e

theorem LoadKept.trans {b c d : Chip} (h1 : LoadKept b c) (h2 : LoadKept c d) : LoadKept b d where
  unit := h2.unit.trans h1.unit
  mode := h2.mode.trans h1.mode
  command := h2.command.trans h1.command
  gate := h2.gate.trans h1.gate
  noticeMask := h2.noticeMask.trans h1.noticeMask
  recordMask := h2.recordMask.trans h1.recordMask
  hlth := h2.hlth.trans h1.hlth
  held e := (h2.held e).trans (h1.held e)

/-- The same, and the staging copies and the health, print and aging records. -/
structure RecordsKept (c d : Chip) : Prop extends LoadKept c d where
  staging : d.ctl.staging = c.ctl.staging
  health : d.ctl.health = c.ctl.health
  print : d.ctl.print = c.ctl.print
  aging : d.ctl.aging = c.ctl.aging

theorem RecordsKept.refl (c : Chip) : RecordsKept c c :=
  ⟨⟨rfl, rfl, rfl, rfl, rfl, rfl, rfl, fun _ => rfl⟩, rfl, rfl, rfl, rfl⟩

theorem RecordsKept.trans {b c d : Chip} (h1 : RecordsKept b c) (h2 : RecordsKept c d) : RecordsKept b d where
  toLoadKept := h1.toLoadKept.trans h2.toLoadKept
  staging := h2.staging.trans h1.staging
  health := h2.health.trans h1.health
  print := h2.print.trans h1.print
  aging := h2.aging.trans h1.aging

/-- Health, frames and the control unit stand as given, but for the working and awaiting printer records. -/
def PrinterWork (k : ControlUnit) (f : FrameUnit) (h : HealthUnit) (d : Chip) : Prop :=
  d.hlth = h ∧ d.frm = f ∧ d.ctl = { k with printers := d.ctl.printers, awaitingPrinters := d.ctl.awaitingPrinters }

theorem workKeeps_printerWork (k : ControlUnit) (f : FrameUnit) (h : HealthUnit) : WorkKeeps (PrinterWork k f h) where
  stn := id
  prt := id
  rct := id
  printerRec := fun ⟨hh, hf, hc⟩ => ⟨hh, hf, by rw [Chip.putPrinterRec, Chip.withCtl, hc]⟩
  awaiting := fun ⟨hh, hf, hc⟩ => ⟨hh, hf, by rw [Chip.putAwaitingPrinter, Chip.withCtl, hc]⟩
  event := fun ⟨hh, hf, hc⟩ => ⟨(recordEvent_hlth _ _).trans hh, (recordEvent_frm _ _).trans hf, by
    rw [recordEvent_ctl]; exact hc⟩
  feed _ _ := fun ⟨hh, hf, hc⟩ => ⟨(formDeposit_hlth _ _ _ _ _).trans hh, (formDeposit_frm _ _ _ _ _).trans hf, by
    rw [formDeposit_ctl]; exact hc⟩

theorem PrinterWork.recordsKept {c d : Chip} (h : PrinterWork c.ctl c.frm c.hlth d) : RecordsKept c d where
  unit := by rw [h.2.2]
  mode := by rw [h.2.2]
  command := by rw [h.2.2]
  gate := by rw [h.2.2]
  noticeMask := by rw [h.2.2]
  recordMask := by rw [h.2.2]
  hlth := h.1
  held := Chip.held_of_frm h.2.1
  staging := by rw [h.2.2]
  health := by rw [h.2.2]
  print := by rw [h.2.2]
  aging := by rw [h.2.2]

/-- Outside RUN no trigger fires (R172). -/
theorem top_of_not_run {v : Trigger} {c : Chip} (h : c.ctl.mode ≠ .run) : top v c = c :=
  if_neg h

theorem giveKeeps_printerWork {k : ControlUnit} {f : FrameUnit} {h : HealthUnit} (hk : k.mode ≠ .run) :
    GiveKeeps (PrinterWork k f h) top := fun v c hc => by
  have hm : c.ctl.mode = k.mode := by rw [hc.2.2]
  rw [top_of_not_run (by rwa [hm])]
  exact hc

/-- A pending commit set or dropped touches nothing that LOAD's words are compared with. -/
theorem setPending_kept (id : RecordId) (v : Option RecordVal) (c : Chip) : RecordsKept c (setPending id v c) := by
  cases id <;> exact ⟨⟨rfl, rfl, rfl, rfl, rfl, rfl, rfl, fun _ => rfl⟩, rfl, rfl, rfl, rfl⟩

theorem applyRingRec_kept (k : Nat) (r : RingRec) (c : Chip) : RecordsKept c (applyRingRec k r c) := by
  unfold applyRingRec
  split
  · exact ⟨⟨rfl, rfl, rfl, rfl, rfl, rfl, rfl, putCtx_held _ _ _⟩, rfl, rfl, rfl, rfl⟩
  · split <;> exact ⟨⟨rfl, rfl, rfl, rfl, rfl, rfl, rfl, putCtx_held _ _ _⟩, rfl, rfl, rfl, rfl⟩

/-- Records but the unit, health, print and aging records as they take effect outside RUN. -/
theorem takeEffect_kept {v : RecordVal} {c : Chip} (hm : c.ctl.mode ≠ .run) (hu : ∀ r, v ≠ .unit r)
    (hh : ∀ r, v ≠ .health r) (hp : ∀ r, v ≠ .print r) (ha : ∀ r, v ≠ .aging r) :
    RecordsKept c (takeEffect top v c) := by
  have hself : PrinterWork c.ctl c.frm c.hlth c := ⟨rfl, rfl, rfl⟩
  have hP := workKeeps_printerWork c.ctl c.frm c.hlth
  have hg := giveKeeps_printerWork (f := c.frm) (h := c.hlth) hm
  cases v with
  | unit r => exact absurd rfl (hu r)
  | ring k r => exact applyRingRec_kept k r c
  | health r => exact absurd rfl (hh r)
  | print r => exact absurd rfl (hp r)
  | aging r => exact absurd rfl (ha r)
  | line l r => exact (applyLineRec_keeps hP hself).recordsKept
  | timer k r => exact (applyTimerRec_keeps hP hself).recordsKept
  | printer p r => exact (applyPrinterRec_keeps hP (serve_keeps hP hg) hg hself).recordsKept
  | reaction k r => exact PrinterWork.recordsKept (c := c) (d := c.putReaction k r) hself

theorem refuseCommit_kept (id : RecordId) (r : RefuseReason) (c : Chip) : RecordsKept c (refuseCommit id r c) where
  unit := congrArg ControlUnit.unit (recordEvent_ctl _ _)
  mode := congrArg ControlUnit.mode (recordEvent_ctl _ _)
  command := congrArg ControlUnit.command (recordEvent_ctl _ _)
  gate := congrArg ControlUnit.gateClosed (recordEvent_ctl _ _)
  noticeMask := congrArg ControlUnit.noticeMask (recordEvent_ctl _ _)
  recordMask := congrArg ControlUnit.recordMask (recordEvent_ctl _ _)
  hlth := recordEvent_hlth _ _
  held := Chip.held_of_frm (recordEvent_frm _ _)
  staging := congrArg ControlUnit.staging (recordEvent_ctl _ _)
  health := congrArg ControlUnit.health (recordEvent_ctl _ _)
  print := congrArg ControlUnit.print (recordEvent_ctl _ _)
  aging := congrArg ControlUnit.aging (recordEvent_ctl _ _)

/-- A validated commit is of the record committed. -/
theorem validate_id {c : Chip} {id : RecordId} {v : RecordVal} (h : c.validate id = .ok v) :
    (∀ r, v = .unit r → id = .unit) ∧ (∀ r, v = .health r → id = .health) ∧ (∀ r, v = .print r → id = .print) ∧
      ∀ r, v = .aging r → id = .aging := by
  cases id with
  | unit =>
    simp only [Chip.validate] at h
    split_ifs at h
    cases h
    exact ⟨fun _ _ => rfl, nofun, nofun, nofun⟩
  | ring k =>
    simp only [Chip.validate] at h
    split_ifs at h
    cases h
    exact ⟨nofun, nofun, nofun, nofun⟩
  | health =>
    cases h
    exact ⟨nofun, fun _ _ => rfl, nofun, nofun⟩
  | print =>
    cases h
    exact ⟨nofun, nofun, fun _ _ => rfl, nofun⟩
  | aging =>
    cases h
    exact ⟨nofun, nofun, nofun, fun _ _ => rfl⟩
  | line l =>
    simp only [Chip.validate] at h
    cases hr : lineRecOf (c.recordWord (.line l)) <;> simp only [hr, Option.map_some, Option.map_none] at h <;> cases h
    exact ⟨nofun, nofun, nofun, nofun⟩
  | timer k =>
    cases h
    exact ⟨nofun, nofun, nofun, nofun⟩
  | printer p =>
    simp only [Chip.validate] at h
    split at h
    · cases h
    · split_ifs at h
      cases h
      exact ⟨nofun, nofun, nofun, nofun⟩
  | reaction r =>
    simp only [Chip.validate] at h
    cases hr : reactionRecOf (c.recordWord (.reaction r)) <;> simp only [hr, Option.map_some, Option.map_none] at h <;>
      cases h
    exact ⟨nofun, nofun, nofun, nofun⟩

/-- LOAD commits a record other than those four (R27). -/
theorem commitDirect_kept {id : RecordId} {c : Chip} (hm : c.ctl.mode ≠ .run) (hu : id ≠ .unit) (hh : id ≠ .health)
    (hp : id ≠ .print) (ha : id ≠ .aging) : RecordsKept c (commitDirect top id c).2 := by
  unfold commitDirect
  split
  · exact refuseCommit_kept _ _ _
  · next v hv =>
    obtain ⟨vu, vh, vp, va⟩ := validate_id hv
    have hs := setPending_kept id none c
    exact hs.trans (takeEffect_kept (by rwa [hs.mode]) (fun r h => hu (vu r h)) (fun r h => hh (vh r h))
      (fun r h => hp (vp r h)) fun r h => ha (va r h))

/-- The key of the staging copy of the word at an offset (R17, R18). -/
def keyAt (u : UnitRec) (off : Nat) : Nat :=
  if off < 128 then off else if off < u.reactionWord then 1024 + (off - 128) else 2048 + (off - u.reactionWord)

theorem keyAt_low {u : UnitRec} {off : Nat} (h : off < 128) : keyAt u off = off := if_pos h

/-- A record's words lie one after the other from its first (R17). -/
theorem recordAt_first {u : UnitRec} {off i : Nat} {id : RecordId} (h : recordAt u off = some (id, i)) :
    off = recordFirst u id + i ∧ i < recordLength id ∧ stagingKey id i = keyAt u off := by
  have hr : 128 ≤ u.reactionWord := Nat.le_add_right _ _
  unfold recordAt at h
  simp only [ite_eq_iff, Option.some.injEq, Prod.mk.injEq, reduceCtorEq, and_false, false_or, or_false] at h
  have low : off < 128 → off = recordFirst u id + i ∧ i < recordLength id → stagingKey id i = recordFirst u id + i →
      off = recordFirst u id + i ∧ i < recordLength id ∧ stagingKey id i = keyAt u off := fun h1 ⟨h2, hl⟩ h3 =>
    ⟨h2, hl, by rw [keyAt_low h1, h3, ← h2]⟩
  obtain ⟨_, ⟨_, rfl, rfl⟩ | ⟨_, ⟨_, rfl, rfl⟩ | ⟨_, _, ⟨_, rfl, rfl⟩ | ⟨_, ⟨_, rfl, rfl⟩ | ⟨_, ⟨_, rfl, rfl⟩ |
    ⟨_, ⟨_, rfl, rfl⟩ | ⟨_, ⟨_, rfl, rfl⟩ | ⟨_, _, ⟨_, rfl, rfl⟩ | ⟨_, _, rfl, rfl⟩⟩⟩⟩⟩⟩⟩⟩⟩ := h
  · exact low (by omega) (by simp only [recordFirst, recordLength]; omega) rfl
  · exact low (by omega) (by simp only [recordFirst, recordLength]; omega) rfl
  · exact low (by omega) (by simp only [recordFirst, recordLength]; omega) rfl
  · exact low (by omega) (by simp only [recordFirst, recordLength]; omega) rfl
  · exact low (by omega) (by simp only [recordFirst, recordLength]; omega) rfl
  · exact low (by omega) (by simp only [recordFirst, recordLength]; omega) rfl
  · exact low (by omega) (by simp only [recordFirst, recordLength]; omega) rfl
  · refine ⟨by simp only [recordFirst]; omega, by simp only [recordLength]; omega, ?_⟩
    rw [keyAt, if_neg (by omega), if_pos (by omega)]
    simp only [stagingKey]
    omega
  · refine ⟨by simp only [recordFirst]; omega, by simp only [recordLength]; omega, ?_⟩
    rw [keyAt, if_neg (by omega), if_neg (by omega)]
    simp only [stagingKey]
    omega

/-- Later words have later keys, while printer and reaction keys do not meet. -/
theorem keyAt_lt {u : UnitRec} {o p : Nat} (hu : u.np ≤ 8) (h : o < p) : keyAt u o < keyAt u p := by
  have hr : u.reactionWord = 128 + 16 * u.np := rfl
  unfold keyAt
  split_ifs <;> omega

theorem le_keyAt {u : UnitRec} {o : Nat} (hu : u.np ≤ 8) : o ≤ keyAt u o := by
  have hr : u.reactionWord = 128 + 16 * u.np := rfl
  unfold keyAt
  split
  · exact Nat.le_refl o
  · split <;> omega

/-- The staged words from a key on, as a record is read from them. -/
def Chip.wordsFrom (c : Chip) (first i : Nat) : Nat := (c.staged (first + i)).toNat

/-- From `c` to `d` a record that LOAD takes at its last word is in force as staged, where that word is among those
taken, and else as it was. -/
def recordTaken {α : Type} (get : Chip → α) (rec : (Nat → Nat) → α) (first : Nat) (b : Prop) [Decidable b]
    (c d : Chip) : Prop :=
  get d = if b then rec (d.wordsFrom first) else get c

/-- What LOAD makes of one word from word 48 on (R27). -/
structure WordTaken (off : Nat) (w : Word) (c d : Chip) : Prop extends LoadKept c d where
  staged : ∀ k, d.staged k =
    if (recordAt c.ctl.unit off).isSome = true ∧ k = keyAt c.ctl.unit off then w else c.staged k
  health : recordTaken (·.ctl.health) healthRecOf 64 (off = 79) c d
  print : recordTaken (·.ctl.print) printRecOf 80 (off = 87) c d
  aging : recordTaken (·.ctl.aging) agingRecOf 112 (off = 119) c d

theorem staged_of_staging {c d : Chip} (h : d.ctl.staging = c.ctl.staging) (k : Nat) : d.staged k = c.staged k := by
  rw [Chip.staged, Chip.staged, h]

/-- A word of a record staged, with no record's last word. -/
theorem stage_taken {off i : Nat} {id : RecordId} {w : Word} {c d : Chip} (hr : recordAt c.ctl.unit off = some (id, i))
    (hd : RecordsKept (c.stage (keyAt c.ctl.unit off) w) d) (hh : off ≠ 79) (hp : off ≠ 87) (ha : off ≠ 119) :
    WordTaken off w c d where
  unit := hd.unit
  mode := hd.mode
  command := hd.command
  gate := hd.gate
  noticeMask := hd.noticeMask
  recordMask := hd.recordMask
  hlth := hd.hlth
  held := hd.held
  staged k := by
    rw [staged_of_staging hd.staging, staged_stage, hr]
    simp
  health := by
    rw [recordTaken, if_neg hh]
    exact hd.health
  print := by
    rw [recordTaken, if_neg hp]
    exact hd.print
  aging := by
    rw [recordTaken, if_neg ha]
    exact hd.aging

/-- A word of no record is not taken (assumption 43). -/
theorem gap_taken {off : Nat} {w : Word} {c : Chip} (hr : recordAt c.ctl.unit off = none) : WordTaken off w c c where
  toLoadKept := (RecordsKept.refl c).toLoadKept
  staged k := by simp [hr]
  health := (if_neg (by rintro rfl; exact nomatch hr)).symm
  print := (if_neg (by rintro rfl; exact nomatch hr)).symm
  aging := (if_neg (by rintro rfl; exact nomatch hr)).symm

/-- The last word of a record: the record is committed directly (R27). -/
theorem commit_taken {off i : Nat} {id : RecordId} {w : Word} {c : Chip} (ho : 48 ≤ off) (hm : c.ctl.mode ≠ .run)
    (hr : recordAt c.ctl.unit off = some (id, i)) (hl : i + 1 = recordLength id) :
    WordTaken off w c (commitDirect top id (c.stage (keyAt c.ctl.unit off) w)).2 := by
  obtain ⟨hoff, hi, hkey⟩ := recordAt_first hr
  have hstage : ∀ k, (c.stage (keyAt c.ctl.unit off) w).staged k =
      if (recordAt c.ctl.unit off).isSome = true ∧ k = keyAt c.ctl.unit off then w else c.staged k := fun k => by
    rw [staged_stage, hr]
    simp
  have hkept : LoadKept c (c.stage (keyAt c.ctl.unit off) w) := ⟨rfl, rfl, rfl, rfl, rfl, rfl, rfl, fun _ => rfl⟩
  by_cases hh : id = .health
  · subst hh
    obtain rfl : off = 79 := by
      simp only [recordFirst, recordLength] at hoff hl
      omega
    exact { toLoadKept := hkept.trans ⟨rfl, rfl, rfl, rfl, rfl, rfl, rfl, fun _ => rfl⟩
            staged := hstage, health := rfl, print := rfl, aging := rfl }
  by_cases hp : id = .print
  · subst hp
    obtain rfl : off = 87 := by
      simp only [recordFirst, recordLength] at hoff hl
      omega
    exact { toLoadKept := hkept.trans ⟨rfl, rfl, rfl, rfl, rfl, rfl, rfl, fun _ => rfl⟩
            staged := hstage, health := rfl, print := rfl, aging := rfl }
  by_cases ha : id = .aging
  · subst ha
    obtain rfl : off = 119 := by
      simp only [recordFirst, recordLength] at hoff hl
      omega
    exact { toLoadKept := hkept.trans ⟨rfl, rfl, rfl, rfl, rfl, rfl, rfl, fun _ => rfl⟩
            staged := hstage, health := rfl, print := rfl, aging := rfl }
  have hunit : id ≠ .unit := by
    rintro rfl
    simp only [recordFirst, recordLength] at hoff hi
    omega
  refine stage_taken hr (commitDirect_kept hm hunit hh hp ha) ?_ ?_ ?_
  · rintro rfl
    cases hr
    exact hh rfl
  · rintro rfl
    cases hr
    exact hp rfl
  · rintro rfl
    cases hr
    exact ha rfl

theorem loadWord_taken {off : Nat} {w : Word} {t : LoadTally} {c : Chip} (ho : 48 ≤ off) (hm : c.ctl.mode ≠ .run) :
    (loadWord top off w t c).1.left = t.left ∧ WordTaken off w c (loadWord top off w t c).2 := by
  rw [loadWord, if_neg (by omega), if_neg (by omega), if_neg (by omega)]
  cases hr : recordAt c.ctl.unit off with
  | none => exact ⟨rfl, gap_taken hr⟩
  | some p =>
    obtain ⟨id, i⟩ := p
    obtain ⟨hoff, hi, hkey⟩ := recordAt_first hr
    have hunit : id ≠ .unit := by
      rintro rfl
      simp only [recordFirst, recordLength] at hoff hi
      omega
    simp only [hkey]
    by_cases hl : i + 1 = recordLength id
    · rw [if_pos hl, if_neg hunit]
      exact ⟨rfl, commit_taken ho hm hr hl⟩
    · rw [if_neg hl]
      refine ⟨rfl, stage_taken hr (RecordsKept.refl _) ?_ ?_ ?_⟩ <;>
        · rintro rfl
          cases hr
          exact hl rfl

/-- What LOAD makes of a run of words from word 48 on: the records' words staged, and the rest of the part kept but
for the records in force. -/
structure RunTaken (off : Nat) (ds : List Word) (c d : Chip) : Prop extends LoadKept c d where
  staged : ∀ j < ds.length, (recordAt c.ctl.unit (off + j)).isSome = true →
    d.staged (keyAt c.ctl.unit (off + j)) = ds.getD j 0
  unstaged : ∀ k, (∀ j < ds.length, (recordAt c.ctl.unit (off + j)).isSome = true → keyAt c.ctl.unit (off + j) ≠ k) →
    d.staged k = c.staged k

theorem loadRun_taken {off : Nat} {ds : List Word} {t : LoadTally} {c : Chip} (ho : 48 ≤ off)
    (hm : c.ctl.mode ≠ .run) (hu : c.ctl.unit.np ≤ 8) :
    (loadRun top off ds t c).1.left = t.left ∧ RunTaken off ds c (loadRun top off ds t c).2 := by
  induction ds generalizing off t c with
  | nil =>
    exact ⟨rfl, { toLoadKept := (RecordsKept.refl c).toLoadKept
                  staged := fun j hj => absurd hj (Nat.not_lt_zero j), unstaged := fun _ _ => rfl }⟩
  | cons w ds ih =>
    obtain ⟨hleft, hw⟩ := loadWord_taken (w := w) (t := t) ho hm
    obtain ⟨hl, hd⟩ := ih (off := off + 1) (t := (loadWord top off w t c).1) (c := (loadWord top off w t c).2)
      (by omega) (by rwa [hw.mode]) (by rwa [hw.unit])
    have hstaged := hd.staged
    have hunstaged := hd.unstaged
    rw [hw.unit] at hstaged hunstaged
    refine ⟨hl.trans hleft,
      { toLoadKept := hw.toLoadKept.trans hd.toLoadKept, staged := fun j hj hr => ?_, unstaged := fun k hk => ?_ }⟩
    · cases j with
      | zero =>
        have hlater : ∀ j < ds.length, (recordAt c.ctl.unit (off + 1 + j)).isSome = true →
            keyAt c.ctl.unit (off + 1 + j) ≠ keyAt c.ctl.unit off := fun j _ _ =>
          Nat.ne_of_gt (keyAt_lt hu (by omega))
        exact (hunstaged _ hlater).trans ((hw.staged _).trans (if_pos ⟨hr, rfl⟩))
      | succ j =>
        have he : off + (j + 1) = off + 1 + j := by omega
        rw [he] at hr ⊢
        exact hstaged j (Nat.lt_of_succ_lt_succ hj) hr
    · rw [loadRun, hunstaged k fun j hj hr => ?_, hw.staged, if_neg ?_]
      · rintro ⟨hr, rfl⟩
        exact hk 0 (by simp) hr rfl
      · have he : off + 1 + j = off + (j + 1) := by omega
        rw [he] at hr ⊢
        exact hk (j + 1) (Nat.succ_lt_succ hj) hr

/-- A record of `n` words from offset `first` on that is taken with its last word, taken in a run: as staged in the
end, where the run holds that word, and else as it was. -/
theorem loadRun_recordTaken {α : Type} {get : Chip → α} {rec : (Nat → Nat) → α} {first n : Nat}
    (hrec : ∀ w v : Nat → Nat, (∀ i < n, w i = v i) → rec w = rec v)
    (hw : ∀ {off w c d}, WordTaken off w c d → recordTaken get rec first (off + 1 = first + n) c d)
    {off : Nat} {ds : List Word} {t : LoadTally} {c : Chip} (ho : 48 ≤ off)
    (hm : c.ctl.mode ≠ .run) (hu : c.ctl.unit.np ≤ 8) :
    recordTaken get rec first (off < first + n ∧ first + n ≤ off + ds.length) c (loadRun top off ds t c).2 := by
  induction ds generalizing off t c with
  | nil => exact (if_neg (by simp only [List.length_nil]; omega)).symm
  | cons w ds ih =>
    obtain ⟨-, h1⟩ := loadWord_taken (w := w) (t := t) ho hm
    have hhere := hw h1
    have hrest := ih (off := off + 1) (t := (loadWord top off w t c).1) (c := (loadWord top off w t c).2) (by omega)
      (by rwa [h1.mode]) (by rwa [h1.unit])
    obtain ⟨-, hd⟩ := loadRun_taken (off := off + 1) (ds := ds) (t := (loadWord top off w t c).1)
      (c := (loadWord top off w t c).2) (by omega) (by rwa [h1.mode]) (by rwa [h1.unit])
    unfold recordTaken at hhere hrest ⊢
    rw [loadRun, List.length_cons]
    by_cases he : off + 1 = first + n
    · rw [hrest, if_neg (by omega), hhere, if_pos he, if_pos (by omega)]
      refine hrec _ _ fun i hi => ?_
      have hkey : ∀ j < ds.length, (recordAt (loadWord top off w t c).2.ctl.unit (off + 1 + j)).isSome = true →
          keyAt (loadWord top off w t c).2.ctl.unit (off + 1 + j) ≠ first + i := fun j _ _ => by
        have := le_keyAt (u := (loadWord top off w t c).2.ctl.unit) (o := off + 1 + j) (by rwa [h1.unit])
        omega
      exact congrArg BitVec.toNat (hd.unstaged (first + i) hkey).symm
    · rw [hrest, hhere, if_neg he]
      exact if_congr (by omega) rfl rfl

theorem healthRecOf_congr (w v : Nat → Nat) (h : ∀ i < 16, w i = v i) : healthRecOf w = healthRecOf v := by
  simp only [healthRecOf, h, Nat.reduceLT]

theorem printRecOf_congr (w v : Nat → Nat) (h : ∀ i < 8, w i = v i) : printRecOf w = printRecOf v := by
  simp only [printRecOf, h, Nat.reduceLT]

theorem agingRecOf_congr (w v : Nat → Nat) (h : ∀ i < 8, w i = v i) : agingRecOf w = agingRecOf v := by
  simp only [agingRecOf, h, Nat.reduceLT]

/-! ### LOAD's fetches performed -/

/-- While fetches are still to come, LOAD keeps the command in progress with what is left (R27). -/
theorem loadFetched_more {g : Give} {off left count : Nat} {ds : List Word} {tag : Octet} {formed : List Nat} {c : Chip}
    (hc : c.ctl.command = some { tag := tag, phase := .loading left count formed })
    (hl : (loadRun g off ds { left := left - 1, count := count } c).1.left ≠ 0) : ∃ f,
      loadFetched g off ds c = (loadRun g off ds { left := left - 1, count := count } c).2.setCommand (some
        { tag := tag
          phase := .loading (loadRun g off ds { left := left - 1, count := count } c).1.left
            (loadRun g off ds { left := left - 1, count := count } c).1.count f }) := by
  simp only [loadFetched, hc, if_neg hl]
  exact ⟨_, rfl⟩

/-- After the last fetch the part returns to PASS and the reply is formed (R27). -/
theorem loadFetched_last {g : Give} {off left count : Nat} {ds : List Word} {tag : Octet} {formed : List Nat} {c : Chip}
    (hc : c.ctl.command = some { tag := tag, phase := .loading left count formed })
    (hl : (loadRun g off ds { left := left - 1, count := count } c).1.left = 0) : ∃ f,
      loadFetched g off ds c = replyAfter tag f .none (loadRun g off ds { left := left - 1, count := count } c).1.count
        ((loadRun g off ds { left := left - 1, count := count } c).2.setMode .pass) := by
  simp only [loadFetched, hc, if_pos hl]
  exact ⟨_, rfl⟩

/-- The first fetch of LOAD performed, with no commit pending. -/
theorem load_first_performed {s : State} {e : Entry} {q : List Entry} {a left count : Nat} {tag : Octet}
    {formed : List Nat} (pins : Octet) (h : s.chip.path.queue = e :: q) (hw : e.work = .fetch a 16)
    (hp : e.purpose = .loadFetch 26) (hl : 2 ≤ left)
    (hc : s.chip.ctl.command = some { tag := tag, phase := .loading left count formed })
    (hn : s.chip.ctl.pendingCommits = []) :
    let c := s.chip.popped pins q
    ∃ t f, exec (.privateCycle pins) s = .next t ∧ s.outsideKept t ∧
      t.chip = { c with ctl := t.chip.ctl, evt := { c.evt with notice := t.chip.evt.notice } } ∧
      t.chip.ctl = { s.chip.ctl with
        staging := t.chip.ctl.staging
        gateClosed := decide (readWord s.mem a ≠ 0)
        noticeMask := loOctet (readWord s.mem (a + 1))
        recordMask := loOctet (readWord s.mem (a + 2))
        pendingLines := t.chip.ctl.pendingLines
        pendingTimers := t.chip.ctl.pendingTimers
        pendingPrinters := t.chip.ctl.pendingPrinters
        pendingReactions := t.chip.ctl.pendingReactions
        command := some { tag := tag, phase := .loading (left - 1) count f } } ∧
      t.chip.ctl.pendingCommits = [] ∧
      ∀ k, t.chip.staged k =
        if 32 ≤ k ∧ k < 42 then readWord s.mem (a + (k - 26)) else s.chip.staged k := by
  intro c
  have he := privateCycle_fetch pins h hw
  obtain ⟨st, l, tm, p, r, hrun, hpend, hst⟩ := loadRun_first (g := top) (t := { left := left - 1, count := count })
    (m := s.mem) (a := a) (c := c) hn
  obtain ⟨f, hf⟩ := loadFetched_more (g := top) (off := 26) (ds := readRun s.mem a 16) (c := c) hc (by
    rw [hrun]
    show left - 1 ≠ 0
    omega)
  have hd : fetchDone e.purpose (readRun s.mem a 16) c = loadFetched top 26 (readRun s.mem a 16) c := by rw [hp]; rfl
  rw [hrun] at hpend hf
  rw [show s.chip.popped pins q = c from rfl, hd, hf] at he
  exact ⟨_, f, he, ⟨rfl, rfl, rfl, rfl⟩, rfl, rfl, hpend, hst⟩

/-- What a LOAD fetch from word 48 on makes of the part, its command aside: `d` stands for the part after it. -/
structure LoadTaken (m : List Host.Cell) (a n off : Nat) (c d : Chip) : Prop where
  unit : d.ctl.unit = c.ctl.unit
  hlth : d.hlth = c.hlth
  held : ∀ e, d.held e = c.held e
  gate : d.ctl.gateClosed = c.ctl.gateClosed
  noticeMask : d.ctl.noticeMask = c.ctl.noticeMask
  recordMask : d.ctl.recordMask = c.ctl.recordMask
  staged : ∀ o id i, off ≤ o ∧ o < off + n → recordAt c.ctl.unit o = some (id, i) →
    d.staged (stagingKey id i) = readWord m (a + (o - off))
  unstaged : ∀ k, (∀ o id i, off ≤ o ∧ o < off + n → recordAt c.ctl.unit o = some (id, i) → stagingKey id i ≠ k) →
    d.staged k = c.staged k
  health : d.ctl.health = if off ≤ 79 ∧ 79 < off + n then healthRecOf (d.wordsFrom 64) else c.ctl.health
  print : d.ctl.print = if off ≤ 87 ∧ 87 < off + n then printRecOf (d.wordsFrom 80) else c.ctl.print
  aging : d.ctl.aging = if off ≤ 119 ∧ 119 < off + n then agingRecOf (d.wordsFrom 112) else c.ctl.aging

theorem loadRun_loadTaken {m : List Host.Cell} {a n off : Nat} {t : LoadTally} {c : Chip} (ho : 48 ≤ off)
    (hm : c.ctl.mode ≠ .run) (hu : c.ctl.unit.np ≤ 8) :
    LoadTaken m a n off c (loadRun top off (readRun m a n) t c).2 := by
  obtain ⟨-, hd⟩ := loadRun_taken (ds := readRun m a n) (t := t) ho hm hu
  have hstaged := hd.staged
  have hunstaged := hd.unstaged
  have hhealth := loadRun_recordTaken healthRecOf_congr (fun h => h.health.trans (if_congr (by omega) rfl rfl))
    (ds := readRun m a n) (t := t) ho hm hu
  have hprint := loadRun_recordTaken printRecOf_congr (fun h => h.print.trans (if_congr (by omega) rfl rfl))
    (ds := readRun m a n) (t := t) ho hm hu
  have haging := loadRun_recordTaken agingRecOf_congr (fun h => h.aging.trans (if_congr (by omega) rfl rfl))
    (ds := readRun m a n) (t := t) ho hm hu
  rw [readRun_length] at hstaged hunstaged hhealth hprint haging
  refine ⟨hd.unit, hd.hlth, hd.held, hd.gate, hd.noticeMask, hd.recordMask, fun o id i hr hi => ?_,
    fun k hk => ?_, ?_, ?_, ?_⟩
  · obtain ⟨-, -, hkey⟩ := recordAt_first hi
    have ho' : off + (o - off) = o := by omega
    have hj : o - off < n := by omega
    have := hstaged (o - off) hj (by rw [ho', hi]; rfl)
    rwa [ho', ← hkey, readRun_getD _ _ hj] at this
  · refine hunstaged k fun j hj hs => ?_
    obtain ⟨⟨id, i⟩, hi⟩ := Option.isSome_iff_exists.mp hs
    obtain ⟨-, -, hkey⟩ := recordAt_first hi
    rw [← hkey]
    exact hk _ id i ⟨by omega, by omega⟩ hi
  · exact hhealth.trans (if_congr (by omega) rfl rfl)
  · exact hprint.trans (if_congr (by omega) rfl rfl)
  · exact haging.trans (if_congr (by omega) rfl rfl)

/-- What the command and the mode do is seen by none of it. -/
theorem LoadTaken.congr {m : List Host.Cell} {a n off : Nat} {c d d' : Chip} {mode : Mode} {v : Option Command}
    (h : LoadTaken m a n off c d) (hc : d'.ctl = { d.ctl with mode := mode, command := v }) (hh : d'.hlth = d.hlth)
    (hf : d'.frm = d.frm) : LoadTaken m a n off c d' := by
  have hs : d'.staged = d.staged := by
    funext k
    rw [Chip.staged, hc]
    rfl
  have hw : d'.wordsFrom = d.wordsFrom := by
    funext k i
    rw [Chip.wordsFrom, hs]
    rfl
  exact
    { unit := by rw [hc]; exact h.unit
      hlth := hh.trans h.hlth
      held := fun e => (Chip.held_of_frm hf e).trans (h.held e)
      gate := by rw [hc]; exact h.gate
      noticeMask := by rw [hc]; exact h.noticeMask
      recordMask := by rw [hc]; exact h.recordMask
      staged := by rw [hs]; exact h.staged
      unstaged := by rw [hs]; exact h.unstaged
      health := by rw [hc, hw]; exact h.health
      print := by rw [hc, hw]; exact h.print
      aging := by rw [hc, hw]; exact h.aging }

/-- A later fetch of LOAD performed. -/
theorem load_later_performed {s : State} {e : Entry} {q : List Entry} {a n off left count : Nat} {tag : Octet}
    {formed : List Nat} (pins : Octet) (h : s.chip.path.queue = e :: q) (hw : e.work = .fetch a n)
    (hp : e.purpose = .loadFetch off) (ho : 48 ≤ off) (hm : s.chip.ctl.mode = .loading)
    (hu : s.chip.ctl.unit.np ≤ 8) (hl : 1 ≤ left)
    (hc : s.chip.ctl.command = some { tag := tag, phase := .loading left count formed }) :
    ∃ t count', exec (.privateCycle pins) s = .next t ∧ s.outsideKept t ∧ LoadTaken s.mem a n off s.chip t.chip ∧
      (2 ≤ left → t.chip.ctl.mode = .loading ∧ ∃ f, t.chip.ctl.command =
        some { tag := tag, phase := .loading (left - 1) count' f }) ∧
      (left = 1 → t.chip.ctl.mode = .pass ∧ t.chip.replied tag .none count') := by
  have hm' : (s.chip.popped pins q).ctl.mode ≠ .run := by
    rw [show (s.chip.popped pins q).ctl.mode = .loading from hm]
    decide
  obtain ⟨hleft, hkept⟩ := loadRun_taken (ds := readRun s.mem a n) (t := { left := left - 1, count := count }) ho hm' hu
  have htaken : LoadTaken s.mem a n off s.chip
      (loadRun top off (readRun s.mem a n) { left := left - 1, count := count } (s.chip.popped pins q)).2 := by
    obtain ⟨h1, h2, h3, h4, h5, h6, h7, h8, h9, h10, h11⟩ := loadRun_loadTaken (m := s.mem) (a := a) (n := n)
      (t := { left := left - 1, count := count }) ho hm' hu
    exact ⟨h1, h2, h3, h4, h5, h6, h7, h8, h9, h10, h11⟩
  have he := privateCycle_fetch pins h hw
  rw [hp] at he
  by_cases h2 : 2 ≤ left
  · obtain ⟨f, hf⟩ := loadFetched_more (g := top) (off := off) (ds := readRun s.mem a n) (c := s.chip.popped pins q) hc
      (by rw [hleft]; show left - 1 ≠ 0; omega)
    rw [fetchDone, hf, hleft] at he
    refine ⟨_, _, he, ⟨rfl, rfl, rfl, rfl⟩, htaken.congr rfl rfl rfl, fun _ => ⟨hkept.mode.trans hm, f, rfl⟩,
      fun h1 => absurd h2 (by omega)⟩
  · obtain ⟨f, hf⟩ := loadFetched_last (g := top) (off := off) (ds := readRun s.mem a n) (c := s.chip.popped pins q) hc
      (by rw [hleft]; show left - 1 = 0; omega)
    rw [fetchDone, hf] at he
    obtain ⟨hctl, -, hfrm, -, hhlth, -⟩ := replyAfter_keeps tag f .none
      (loadRun top off (readRun s.mem a n) { left := left - 1, count := count } (s.chip.popped pins q)).1.count
      ((loadRun top off (readRun s.mem a n) { left := left - 1, count := count }
        (s.chip.popped pins q)).2.setMode .pass)
    refine ⟨_, _, he, ⟨rfl, rfl, rfl, rfl⟩, htaken.congr hctl hhlth hfrm, fun h1 => absurd h1 h2,
      fun _ => ⟨congrArg ControlUnit.mode hctl, replyAfter_replied _ _ _ _ _⟩⟩

/-! ### The private cycle -/

theorem wordOf_toNat (h l : Octet) : (wordOf h l).toNat = h.toNat * 256 + l.toNat := by
  rw [wordOf, BitVec.toNat_append, ← Nat.shiftLeft_add_eq_or_of_lt l.isLt, Nat.shiftLeft_eq]

/-- What descriptor words 1 to 3 fill (R43, assumption 30). -/
theorem fillDescriptor_eq (w1 w2 w3 : Word) (v : Slot) : fillDescriptor [w1, w2, w3] v =
    { v with
      lo := if v.lo = none ∨ v.hi = none then some w1 else v.lo
      hi := if v.lo = none ∨ v.hi = none then some (wordNat (bitsOf w2 0 4)) else v.hi
      len := if v.len = none then some w3 else v.len } := by
  have hhi : highPart w2 = wordNat (bitsOf w2 0 4) := by simp [highPart, bitsOf]
  simp [fillDescriptor, hhi]

/-- A pair frame known to be no link frame: octets 12 and 13 are captured and differ from a type in force (R36). -/
theorem knownNotLink_iff {u : UnitRec} {v : Slot} : v.knownNotLink u = true ↔
    (tget none v.octets 12).isSome = true ∧ (tget none v.octets 13).isSome = true ∧
      (u.linkType = 0 ∨ v.num 12 * 256 + v.num 13 ≠ u.linkType.toNat) := by
  have hw : wordOf (v.octet 12) (v.octet 13) = u.linkType ↔ v.num 12 * 256 + v.num 13 = u.linkType.toNat := by
    rw [← BitVec.toNat_inj, wordOf_toNat]
    rfl
  have hl : v.link u = false ↔ u.linkType = 0 ∨ v.num 12 * 256 + v.num 13 ≠ u.linkType.toNat := by
    rw [Slot.link, Bool.and_eq_false_iff, decide_eq_false_iff_not, decide_eq_false_iff_not, not_not, hw]
  rw [Slot.knownNotLink, Slot.wordCaptured, Bool.and_eq_true, Bool.and_eq_true, Bool.not_eq_true', hl, and_assoc]
  rfl

/-- Settles O45: each entry's work is performed by the lemma of its kind above, the deposit's unit told after it. -/
theorem privateCyclePerformsTheOldest : Obligations.PrivateCyclePerformsTheOldest := by
  unfold Obligations.PrivateCyclePerformsTheOldest
  refine fun pins s => ⟨privateCycle_empty pins, fun e q hq => ?_⟩
  intro c u filled
  refine ⟨fun a ws hw hl => ?_, fun en a n id k v hw hp hn hv hid => ?_, fun en a id v hw hp hn hv hid => ?_,
    fun en a id v hw hp hn hv hid => ?_, fun a tag left count formed hw hp hl hc hn => ?_,
    fun a n off tag left count formed hw hp ho hn hm hu _ hl hc => ?_⟩
  · obtain ⟨t, he, hk, hin, hout, ht⟩ := deposit_performed pins hq hw hl
    refine ⟨t, he, hk, hin, hout, ?_⟩
    rw [ht]
    generalize e.purpose = p
    cases p with
    | statusWord en i id => exact dropSlot_frame en id _
    | reply l => rfl
    | producer v classes => exact ⟨rfl, noticeLow_iff⟩
    | _ => rfl
  · subst hid
    obtain ⟨t, w, he, hk, hch, hg, hf, hl, hctx, ho, hids, hmem, hid, hfill⟩ :=
      frame_fetch_performed (f := fillWords u en k (readRun s.mem a n)) pins hq hw (by rw [hp]; rfl)
        (fillWords_id _ _ _ _) hn hv
    refine ⟨t, w, he, hk, hch, hg, hf, hl, hctx, ho, hids, hmem, hid, ?_, fun j => ?_⟩
    · rw [hfill, fillWords_with]
    · have hoct : w.octets = (fillWords u en k (readRun s.mem a n) v).octets := by rw [hfill]
      have hlink : (fillWords u en k (readRun s.mem a n) v).knownNotLink u = w.knownNotLink u :=
        knownNotLink_congr (by rw [hoct]) (by rw [hoct])
      have hj := fillWords_octet u en k (readRun s.mem a n) v j
      rw [← hoct, hlink, readRun_length] at hj
      refine hj.trans (ite_congr (by rw [knownNotLink_iff]) (fun _ => rfl) fun hc => ?_)
      obtain ⟨-, hc⟩ := not_or.mp hc
      rw [readRun_getD _ _ (by omega)]
  · subst hid
    obtain ⟨t, w, he, hk, hch, hg, hf, hl, hctx, ho, hids, hmem, hid, hfill⟩ :=
      frame_fetch_performed (f := fillDescriptor (readRun s.mem a 3)) pins hq hw (by rw [hp]; rfl)
        (fun _ => rfl) hn hv
    refine ⟨t, w, he, hk, hch, hg, hf, hl, hctx, ho, hids, hmem, hid, hfill.trans ?_⟩
    rw [show readRun s.mem a 3 = [readWord s.mem a, readWord s.mem (a + 1), readWord s.mem (a + 2)] from rfl,
      fillDescriptor_eq]
  · subst hid
    obtain ⟨t, w, he, hk, hch, hg, hf, hl, hctx, ho, hids, hmem, hid, hfill⟩ :=
      frame_fetch_performed (f := fun v => { v with payload := some ((readRun s.mem a 1).getD 0 0) }) pins hq hw
        (by rw [hp]; rfl) (fun _ => rfl) hn hv
    exact ⟨t, w, he, hk, hch, hg, hf, hl, hctx, ho, hids, hmem, hid, hfill⟩
  · exact load_first_performed pins hq hw hp hl hc hn
  · obtain ⟨t, count', he, hk, ht, hmore, hlast⟩ := load_later_performed pins hq hw hp ho hm hu hl hc
    exact ⟨t, count', he, hk, ht.unit, ht.hlth, ht.held, ht.gate, ht.noticeMask, ht.recordMask, ht.staged, ht.unstaged,
      ht.health, ht.print, ht.aging, hmore, hlast⟩

end Sys2Proof.Machine

/-! PROOF. The control area: what a processor's full-word write there makes of the machine (R16), staging (R18), and
the commits of the records that one unit alone takes (R19 to R22). -/

namespace Sys2Proof.Machine

/-! ### Full-word writes in the control area -/

/-- On a free bus a processor's full-word write reaches memory and is taken by the control unit of the struck part
(R16). -/
theorem processorWrite_wrote {s : State} (h : s.busFree) {o : Nat} (ho : o < 8192) (d : Word) :
    ∃ t, processorWrite o d s = .next t ∧ s.wrote t o d ∧ t.chip = controlWrite top o d (s.struckAt o) := by
  refine ⟨_, processorWrite_free h ho d, ⟨wordWritten_of_mem ?_, rfl, rfl, rfl⟩, rfl⟩
  rw [Chip.controlAddr_toNat _ ho]
  rfl

@[simp] theorem struckAt_unit (s : State) (o : Nat) : (s.struckAt o).ctl.unit = s.chip.ctl.unit :=
  strikeAt_ctl_unit _ _

@[simp] theorem struckAt_mode (s : State) (o : Nat) : (s.struckAt o).ctl.mode = s.chip.ctl.mode :=
  strikeAt_ctl_mode _ _

@[simp] theorem struckAt_base (s : State) (o : Nat) : (s.struckAt o).base = s.chip.base :=
  strikeAt_base _ _

@[simp] theorem struckAt_staged (s : State) (o k : Nat) : (s.struckAt o).staged k = s.chip.staged k :=
  congrArg (fun l => tget 0 l k) (strikeAt_ctl_staging (s.chip.base + o) s.chip)

/-- Every word of a record lies beyond the words the control unit takes for itself. -/
theorem recordAt_above {u : UnitRec} {o i : Nat} {id : RecordId} (h : recordAt u o = some (id, i)) : 32 ≤ o := by
  by_contra ho
  rw [recordAt, if_pos (by omega)] at h
  exact nomatch h

/-- A record's word is taken by its record (R16, R18). -/
theorem controlWrite_record {g : Give} {o i : Nat} {id : RecordId} {c : Chip} (h : recordAt c.ctl.unit o = some (id, i))
    (d : Word) : controlWrite g o d c = recordWrite g id i d c := by
  have ho := recordAt_above h
  unfold controlWrite
  rw [if_neg (by omega), if_neg (by omega), if_neg (by omega), if_neg (by omega), if_neg (by omega),
    if_neg (by omega), h]

/-- A word of no unit's is not taken (R16). -/
theorem controlWrite_untaken {g : Give} {o : Nat} {c : Chip} (h4 : 4 < o) (h : o < 25 ∨ 28 < o)
    (hr : recordAt c.ctl.unit o = none) (d : Word) : controlWrite g o d c = c := by
  unfold controlWrite
  rw [if_neg (by omega), if_neg (by omega), if_neg (by omega), if_neg (by omega), if_neg (by omega),
    if_neg (by omega), hr]

/-- A record's word that commits nothing is staged and no more (R18). -/
theorem recordWrite_staged {g : Give} {id : RecordId} {i : Nat} {c : Chip}
    (h : i + 1 ≠ recordLength id ∨ c.ctl.mode = .loading) (d : Word) :
    recordWrite g id i d c = c.stage (stagingKey id i) d :=
  if_neg fun ⟨hl, hm⟩ => h.elim (· hl) hm

/-- Settles O23: the written word reaches the control unit, which stages it or does not take it. -/
theorem stagingWritesReplaceTheCopy : Obligations.StagingWritesReplaceTheCopy := by
  unfold Obligations.StagingWritesReplaceTheCopy
  intro o d s hs
  dsimp only
  obtain ⟨t, ht, hw, hc⟩ := processorWrite_wrote hs o.isLt d
  have copied : ∀ key, t.chip = (s.struckAt o.toNat).stage key d →
      t.chip = (s.struckAt o.toNat).withCtl { (s.struckAt o.toNat).ctl with staging := t.chip.ctl.staging } ∧
        ∀ k, t.chip.staged k = if k = key then d else s.chip.staged k := by
    intro key h
    rw [h]
    exact ⟨rfl, fun k => by rw [staged_stage, struckAt_staged]⟩
  refine ⟨fun h1 h4 => ⟨t, ht, hw, copied _ ?_⟩, fun id i hr hi => ⟨t, ht, hw, copied _ ?_⟩,
    fun h4 ho hr => ⟨t, ht, hw, ?_⟩⟩ <;> rw [hc]
  · simp [controlWrite, h4, show o.toNat ≠ 0 by omega]
  · rw [controlWrite_record (by rwa [struckAt_unit]), recordWrite_staged (by rwa [struckAt_mode])]
  · exact controlWrite_untaken h4 ho (by rwa [struckAt_unit]) d

/-! ### Commits (R18, R19) -/

/-- The write of a record's last word, but in LOADING, stages it and commits the record (R18). -/
theorem commitWrite_wrote {s : State} (h : s.busFree) (hm : s.chip.ctl.mode ≠ .loading) {id : RecordId} {o : Nat}
    (ho : recordFirst s.chip.ctl.unit id + recordLength id - 1 = o) (hl : o < 8192)
    (hr : recordAt s.chip.ctl.unit o = some (id, recordLength id - 1)) (d : Word) :
    ∃ t, commitWrite id d s = .next t ∧ s.wrote t o d ∧ t.chip = commitRecord top id (s.stagedLast id d) := by
  subst ho
  obtain ⟨t, ht, hw, hc⟩ := processorWrite_wrote h hl d
  refine ⟨t, ht, hw, ?_⟩
  have hlen : recordLength id - 1 + 1 = recordLength id := by cases id <;> rfl
  rw [hc, controlWrite_record (by rwa [struckAt_unit])]
  exact if_pos ⟨hlen, by simpa [Chip.stage] using hm⟩

@[simp] theorem stagedLast_unit (s : State) (id : RecordId) (d : Word) :
    (s.stagedLast id d).ctl.unit = s.chip.ctl.unit :=
  struckAt_unit _ _

@[simp] theorem stagedLast_mode (s : State) (id : RecordId) (d : Word) :
    (s.stagedLast id d).ctl.mode = s.chip.ctl.mode :=
  struckAt_mode _ _

@[simp] theorem stagedLast_gate (s : State) (id : RecordId) (d : Word) :
    (s.stagedLast id d).ctl.gateClosed = s.chip.ctl.gateClosed :=
  strikeAt_ctl_gateClosed _ _

@[simp] theorem stagedLast_base (s : State) (id : RecordId) (d : Word) : (s.stagedLast id d).base = s.chip.base :=
  struckAt_base _ _

/-- A refused commit is recorded, and nothing else happens (R19). -/
theorem refuseCommit_spec (id : RecordId) (r : RefuseReason) (c : Chip) :
    (refuseCommit id r c).ctl = c.ctl ∧
      c.quiet (refuseCommit id r c) [configRefused r.code (recordFirst c.ctl.unit id)] :=
  ⟨recordEvent_ctl _ _, recordEvent_quiet (evConfigRefused r (recordFirst c.ctl.unit id)) c⟩

theorem commitRecord_refused {g : Give} {id : RecordId} {r : RefuseReason} {c : Chip} (h : c.validate id = .error r) :
    commitRecord g id c = refuseCommit id r c := by
  simp only [commitRecord, h]

/-- A validated commit of a PASS-only record takes effect, whatever the gate (R21, R22). -/
theorem commitRecord_ungated {g : Give} {id : RecordId} {v : RecordVal} {c : Chip} (h : c.validate id = .ok v)
    (hi : id.gated = false) : commitRecord g id c = proceed g v c := by
  simp [commitRecord, h, hi]

/-- A validated commit of another record becomes pending behind the gate, and proceeds with the gate open (R22). -/
theorem commitRecord_gated {g : Give} {id : RecordId} {v : RecordVal} {c : Chip} (h : c.validate id = .ok v)
    (hi : id.gated = true) : commitRecord g id c =
      if c.ctl.gateClosed = true then setPending id (some v) c else proceed g v c := by
  simp [commitRecord, h, hi]

/-! ### Ring records (R20, R37) -/

theorem badRegion_iff (c : Chip) (b len : Nat) : c.badRegion b len = true ↔
    1048576 < b + len ∨ (b < c.base + 8192 ∧ c.base < b + len) := by
  simp only [Chip.badRegion, Bool.or_eq_true, Bool.and_eq_true, decide_eq_true_eq]
  rfl

/-- A ring record in force: the ring's own copy, and the context of its engine emptied (R20, R37). -/
theorem applyRingRec_spec {k : Nat} (hk : k < 3) (r : RingRec) (c : Chip) :
    applyRingRec k r c = { c with ctl := (applyRingRec k r c).ctl, frm := (applyRingRec k r c).frm } ∧
      (applyRingRec k r c).ctl = { c.ctl with
        coaxRing := if k = 0 then some r else c.ctl.coaxRing
        pairRing := if k = 1 then some r else c.ctl.pairRing
        transmitRing := if k = 2 then some r else c.ctl.transmitRing } ∧
      (∀ e, (applyRingRec k r c).held e = c.held e) ∧
      ∀ e, (applyRingRec k r c).ctx e =
        if e = (if k = 1 then Engine.pair else Engine.coax) then Ctx.blank else c.ctx e := by
  obtain rfl | rfl | rfl : k = 0 ∨ k = 1 ∨ k = 2 := by omega
  all_goals exact ⟨rfl, rfl, fun e => by cases e <;> rfl, fun e => by cases e <;> rfl⟩

/-- Settles O25: the three outcomes of the record's validation. -/
theorem ringRecordCommits : Obligations.RingRecordCommits := by
  unfold Obligations.RingRecordCommits
  intro k d s hk hs c w r bad engine
  have hr : recordAt s.chip.ctl.unit (51 + 4 * k) = some (.ring k, 3) := by
    obtain rfl | rfl | rfl : k = 0 ∨ k = 1 ∨ k = 2 := by omega
    all_goals rfl
  have wrote := fun hm => commitWrite_wrote hs hm (id := .ring k) (o := 51 + 4 * k)
    (by simp only [recordFirst, recordLength]; omega) (by omega) hr d
  have hv : c.validate (.ring k) =
      if c.ctl.mode = .run then .error .wrongMode
      else if c.badRegion r.base (ringWords r.e) then .error .region else .ok (.ring k r) := rfl
  have hm : c.ctl.mode = s.chip.ctl.mode := stagedLast_mode _ _ _
  have hb : c.badRegion r.base (ringWords r.e) = true ↔ bad := by
    rw [badRegion_iff, stagedLast_base]
    rfl
  rw [hm] at hv
  refine ⟨fun hm => ?_, fun hm hbad => ?_, fun hm hbad => ?_⟩ <;>
    obtain ⟨t, ht, hw, hc⟩ := wrote (by simp [hm]) <;> refine ⟨t, ht, hw, ?_⟩
  · rw [if_pos hm] at hv
    rw [hc, commitRecord_refused hv]
    exact refuseCommit_spec _ _ _
  · rw [if_neg (by simp [hm]), if_pos (hb.mpr hbad)] at hv
    rw [hc, commitRecord_refused hv]
    exact refuseCommit_spec _ _ _
  · rw [if_neg (by simp [hm]), if_neg (mt hb.mp hbad)] at hv
    rw [hc, commitRecord_ungated hv rfl]
    obtain ⟨h1, h2, h3, h4⟩ := applyRingRec_spec hk r c
    refine ⟨h1, h2, fun e => (h3 e).trans ?_, fun e => (h4 e).trans ?_⟩
    · exact Chip.held_of_frm (strikeAt_frm _ _) e
    · rw [show c.ctx e = s.chip.ctx e from Chip.ctx_of_frm (strikeAt_frm _ _) e]

end Sys2Proof.Machine

/-! PROOF. The records that the gate holds: the health, print, aging, timer and reaction records (R21, R22), the gate
itself, and the masks (R16, R179). -/

namespace Sys2Proof.Machine

/-! ### Fields of the staged records -/

theorem bitOf_eq (w : Word) (i : Nat) : bitOf w i = decide (w.toNat / 2 ^ i % 2 = 1) :=
  Nat.testBit_eq_decide_div_mod_eq

/-- A word of its own needs no upper limit. -/
theorem clampTo_word (w : Word) : clampTo 1 65535 w.toNat = max 1 w.toNat := by
  have := w.isLt
  simp only [clampTo]
  omega

theorem clampTo_zero (hi n : Nat) : clampTo 0 hi n = min hi n := Nat.zero_max _

theorem healthRecOf_staged (c : Chip) :
    let w := fun k => (c.staged (64 + k)).toNat
    healthRecOf (c.recordWord .health) =
      { bodyCrc := w 0 / 256, short := w 0 % 256, long := w 1 / 256, code := w 1 % 256, reflection := w 2 / 256,
        header := w 2 % 256, malformed := w 3 / 256, goodCredit := w 3 % 256, decayFactor := w 4 / 256,
        stationStep := w 4 % 256, decayInterval := max 1 (w 5), tw := min (max 1 (w 6)) (max 1 (w 7)),
        ti := max 1 (w 7), holdBase := max 1 (w 8), holdMax := max 1 (w 9), trial := max 1 (w 10),
        clearInterval := max 1 (w 11), stationLong := w 12 / 256, stationMismatch := w 12 % 256,
        stationConflict := w 13 / 256, stationLimit := max 1 (w 13 % 256),
        maxStrikes := max 1 (min 15 (w 15 % 256)) } := by
  have hlo : ∀ w : Word, clampTo 1 255 (loNat w.toNat) = max 1 (w.toNat % 256) := fun w => by
    simp only [clampTo, loNat]
    omega
  simp only [healthRecOf, Chip.recordWord, stagingKey, clampTo_word, hlo]
  rfl

theorem printRecOf_staged (c : Chip) : printRecOf (c.recordWord .print) =
    { idleLimit := (c.staged (80 + 0)).toNat, grace := max 1 (c.staged (80 + 1)).toNat
      waitCap := max 1 (min 16 (c.staged (80 + 7)).toNat) } := by
  simp only [printRecOf, Chip.recordWord, stagingKey, clampTo_word]
  rfl

theorem agingRecOf_staged (c : Chip) : agingRecOf (c.recordWord .aging) =
    { silence := max 1 (c.staged (112 + 0)).toNat, removal := (c.staged (112 + 1)).toNat
      proxyFree := (c.staged (112 + 2)).toNat, reclaimMin := (c.staged (112 + 3)).toNat
      flapWindow := min 600 (c.staged (112 + 7)).toNat } := by
  simp only [agingRecOf, Chip.recordWord, stagingKey, clampTo_word, clampTo_zero]

theorem timerRecOf_staged (c : Chip) (k : Nat) : timerRecOf (c.recordWord (.timer k)) =
    { period := (c.staged (104 + 2 * k)).toNat, repeats := bitOf (c.staged (105 + 2 * k)) 0 } := by
  have h : 104 + 2 * k + 1 = 105 + 2 * k := by omega
  simp only [timerRecOf, Chip.recordWord, stagingKey, bitOf_eq, h, Nat.add_zero, pow_zero, Nat.div_one]

/-! ### Health, print and aging records (R51, R111, R112, R134) -/

/-- The write of a gated record's last word, validated: pending behind the gate, else it proceeds. -/
theorem gatedCommit_wrote {s : State} (h : s.busFree) (hm : s.chip.ctl.mode ≠ .loading) {id : RecordId} {o : Nat}
    (ho : recordFirst s.chip.ctl.unit id + recordLength id - 1 = o) (hl : o < 8192)
    (hr : recordAt s.chip.ctl.unit o = some (id, recordLength id - 1)) (d : Word) (hi : id.gated = true)
    {v : RecordVal} (hv : (s.stagedLast id d).validate id = .ok v) :
    ∃ t, commitWrite id d s = .next t ∧ s.wrote t o d ∧ t.chip =
      if s.chip.ctl.gateClosed = true then setPending id (some v) (s.stagedLast id d)
      else proceed top v (s.stagedLast id d) := by
  obtain ⟨t, ht, hw, hc⟩ := commitWrite_wrote h hm ho hl hr d
  rw [commitRecord_gated hv hi, stagedLast_gate] at hc
  exact ⟨t, ht, hw, hc⟩

theorem healthRecord_committed (d : Word) {s : State} (hs : s.busFree) (hm : s.chip.ctl.mode ≠ .loading) :
    let c := s.stagedLast .health d
    ∃ t, exec (.healthRecordCommit d) s = .next t ∧ s.wrote t 79 d ∧ t.chip = c.withCtl
      (if s.chip.ctl.gateClosed then { c.ctl with pendingHealth := some (healthRecOf (c.recordWord .health)) }
       else if s.chip.ctl.mode = .run then
        { c.ctl with awaitingHealth := some (healthRecOf (c.recordWord .health)) }
       else { c.ctl with health := healthRecOf (c.recordWord .health) }) := by
  intro c
  obtain ⟨t, ht, hw, hc⟩ := gatedCommit_wrote hs hm (id := .health) (o := 79) rfl (by decide) rfl d rfl rfl
  refine ⟨t, ht, hw, hc.trans ?_⟩
  cases s.chip.ctl.gateClosed with
  | true => rfl
  | false =>
    by_cases hr : s.chip.ctl.mode = .run
    · rw [if_pos hr]
      exact if_pos ((stagedLast_mode _ _ _).trans hr)
    · rw [if_neg hr]
      have hr' : ¬ c.ctl.mode = .run := by rwa [stagedLast_mode]
      exact if_neg hr'

theorem printRecord_committed (d : Word) {s : State} (hs : s.busFree) (hm : s.chip.ctl.mode ≠ .loading) :
    let c := s.stagedLast .print d
    ∃ t, exec (.printRecordCommit d) s = .next t ∧ s.wrote t 87 d ∧ t.chip = c.withCtl
      (if s.chip.ctl.gateClosed then { c.ctl with pendingPrint := some (printRecOf (c.recordWord .print)) }
       else { c.ctl with print := printRecOf (c.recordWord .print) }) := by
  intro c
  obtain ⟨t, ht, hw, hc⟩ := gatedCommit_wrote hs hm (id := .print) (o := 87) rfl (by decide) rfl d rfl rfl
  refine ⟨t, ht, hw, hc.trans ?_⟩
  cases s.chip.ctl.gateClosed <;> rfl

theorem agingRecord_committed (d : Word) {s : State} (hs : s.busFree) (hm : s.chip.ctl.mode ≠ .loading) :
    let c := s.stagedLast .aging d
    ∃ t, exec (.agingRecordCommit d) s = .next t ∧ s.wrote t 119 d ∧ t.chip = c.withCtl
      (if s.chip.ctl.gateClosed then { c.ctl with pendingAging := some (agingRecOf (c.recordWord .aging)) }
       else { c.ctl with aging := agingRecOf (c.recordWord .aging) }) := by
  intro c
  obtain ⟨t, ht, hw, hc⟩ := gatedCommit_wrote hs hm (id := .aging) (o := 119) rfl (by decide) rfl d rfl rfl
  refine ⟨t, ht, hw, hc.trans ?_⟩
  cases s.chip.ctl.gateClosed <;> rfl

/-! ### Timer records (R163) -/

theorem timer_putTimer (k i : Nat) (v : Timer) (c : Chip) :
    (c.putTimer k v).timer i = if i = k then v else c.timer i :=
  tget_tset _ _ _ _ _

/-- A timer record as it takes effect: a running timer starts again from the new period, or stops at period 0. -/
theorem applyTimerRec_eq (k : Nat) (r : TimerRec) (c : Chip) : applyTimerRec k r c = c.putTimer k
    (if (c.timer k).running = false then { c.timer k with record := r }
    else if r.period = 0 then { c.timer k with record := r, running := false, count := 0 }
    else { c.timer k with record := r, count := r.period }) := by
  cases hr : (c.timer k).running <;> by_cases hp : r.period = 0 <;> simp [applyTimerRec, hr, hp]

theorem timerRecord_committed {k : Nat} (hk : k < 4) (d : Word) {s : State} (hs : s.busFree)
    (hm : s.chip.ctl.mode ≠ .loading) :
    let c := s.stagedLast (.timer k) d
    let v := timerRecOf (c.recordWord (.timer k))
    ∃ t, exec (.timerRecordCommit k d) s = .next t ∧ s.wrote t (105 + 2 * k) d ∧ t.chip =
      if s.chip.ctl.gateClosed then
        c.withCtl { c.ctl with pendingTimers := tset none c.ctl.pendingTimers k (some v) }
      else applyTimerRec k v c :=
  gatedCommit_wrote hs hm (id := .timer k) (by simp only [recordFirst, recordLength]; omega) (by omega)
    (by interval_cases k <;> rfl) d rfl rfl

/-! ### Reaction records (R171) -/

theorem triggerKindOf_known {n : Nat} (h : n ≤ 10) : ∃ t, triggerKindOf n = some t ∧ t.code = n := by
  interval_cases n <;> exact ⟨_, rfl, rfl⟩

theorem trunkStateOf_known {n : Nat} (h : n ≤ 5) : ∃ t, trunkStateOf n = some t ∧ t.code = n := by
  interval_cases n <;> exact ⟨_, rfl, rfl⟩

theorem actionKindOf_known {n : Nat} (h : n ≤ 9) : ∃ a, actionKindOf n = some a := by
  interval_cases n <;> exact ⟨_, rfl⟩

theorem triggerKindOf_unknown {n : Nat} (h : 10 < n) : triggerKindOf n = none :=
  match n, h with
  | _ + 11, _ => rfl

theorem trunkStateOf_unknown {n : Nat} (h : 5 < n) : trunkStateOf n = none :=
  match n, h with
  | _ + 6, _ => rfl

theorem actionKindOf_unknown {n : Nat} (h : 9 < n) : actionKindOf n = none :=
  match n, h with
  | _ + 10, _ => rfl

/-- Every range of trigger objects holds the numbers below 4. -/
theorem clampTriggerObj_small (k : TriggerKind) {o : Nat} (h : o < 4) : clampTriggerObj k o = o := by
  cases k <;> simp only [clampTriggerObj] <;> omega

theorem clampActionObj_small (k : ActionKind) {o : Nat} (h : o < 4) : clampActionObj k o = o := by
  cases k <;> simp only [clampActionObj] <;> omega

/-- What a reaction record of words `w` carries (R171). -/
structure ReactionCarries (w : Nat → Word) (v : ReactionRec) : Prop where
  trigger : v.trigger.code = (w 0).toNat / 256
  state : v.triggerState.code = (w 1).toNat
  action : actionKindOf ((w 2).toNat / 256) = some v.action
  enabled : v.enabled = bitOf (w 3) 0
  once : v.once = bitOf (w 3) 1
  triggerObj : v.triggerObj = clampTriggerObj v.trigger ((w 0).toNat % 256)
  actionObj : v.actionObj = clampActionObj v.action ((w 2).toNat % 256)

theorem reactionRecOf_known {w : Nat → Word}
    (h : (w 0).toNat / 256 ≤ 10 ∧ (w 1).toNat ≤ 5 ∧ (w 2).toNat / 256 ≤ 9) :
    ∃ v, reactionRecOf (fun i => (w i).toNat) = some v ∧ ReactionCarries w v := by
  obtain ⟨h0, h1, h2⟩ := h
  obtain ⟨t, ht, htc⟩ := triggerKindOf_known h0
  obtain ⟨st, hst, hstc⟩ := trunkStateOf_known h1
  obtain ⟨a, ha⟩ := actionKindOf_known h2
  refine ⟨
    { trigger := t, triggerObj := clampTriggerObj t ((w 0).toNat % 256), triggerState := st, action := a,
      actionObj := clampActionObj a ((w 2).toNat % 256), enabled := bitOf (w 3) 0, once := bitOf (w 3) 1 },
    ?_, htc, hstc, ha, rfl, rfl, rfl, rfl⟩
  simp only [reactionRecOf, hiNat, loNat, ht, hst, ha, bitOf_eq, pow_zero, pow_one, Nat.div_one]

theorem reactionRecOf_unknown {w : Nat → Nat} (h : ¬ (w 0 / 256 ≤ 10 ∧ w 1 ≤ 5 ∧ w 2 / 256 ≤ 9)) :
    reactionRecOf w = none := by
  unfold reactionRecOf hiNat
  split
  · next t st a ht hst ha =>
    refine absurd ⟨?_, ?_, ?_⟩ h <;> by_contra hn
    · exact nomatch (triggerKindOf_unknown (Nat.lt_of_not_le hn)).symm.trans ht
    · exact nomatch (trunkStateOf_unknown (Nat.lt_of_not_le hn)).symm.trans hst
    · exact nomatch (actionKindOf_unknown (Nat.lt_of_not_le hn)).symm.trans ha
  · rfl

/-- The last word of a reaction record in force. -/
theorem recordAt_reaction {u : UnitRec} {r : Nat} (hr : r < u.nr) :
    recordAt u (128 + 16 * u.np + 4 * r + 3) = some (.reaction r, 3) := by
  have h1 : u.reactionWord = 128 + 16 * u.np := rfl
  have h2 : u.eventWord = u.reactionWord + 4 * u.nr := rfl
  unfold recordAt
  rw [if_neg (by omega), if_neg (by omega), if_neg (by omega), if_neg (by omega), if_neg (by omega),
    if_neg (by omega), if_neg (by omega), if_neg (by omega), if_neg (by omega), if_neg (by omega), if_neg (by omega),
    if_pos (by omega)]
  exact congrArg some (Prod.ext (congrArg RecordId.reaction (by omega)) (by omega))

theorem reaction_putReaction (r i : Nat) (v : ReactionRec) (c : Chip) :
    (c.putReaction r v).reaction i = if i = r then v else c.reaction i :=
  tget_tset _ _ _ _ _

/-- Settles O26: each record's fields as staged, then the gate and the record's class. -/
theorem recordCommitsTakeTheirFields : Obligations.RecordCommitsTakeTheirFields := by
  unfold Obligations.RecordCommitsTakeTheirFields
  refine ⟨fun d s hs hm => ?_, fun d s hs hm => ⟨?_, ?_, fun k hk => ?_, fun r hr hr16 hnp => ?_⟩⟩
  · intro c w hi lo h
    have hv : healthRecOf (c.recordWord .health) = h := healthRecOf_staged c
    rw [← hv]
    exact healthRecord_committed d hs hm
  · intro c w v
    have hv : printRecOf (c.recordWord .print) = v := printRecOf_staged c
    rw [← hv]
    exact printRecord_committed d hs hm
  · intro c w v
    have hv : agingRecOf (c.recordWord .aging) = v := agingRecOf_staged c
    rw [← hv]
    exact agingRecord_committed d hs hm
  · intro c v
    obtain ⟨t, ht, hw, hc⟩ := timerRecord_committed hk d hs hm
    rw [timerRecOf_staged] at hc
    have hp : c.ctl.pendingTimers = s.chip.ctl.pendingTimers := strikeAt_ctl_pendingTimers _ _
    have hi : ∀ i, c.timer i = s.chip.timer i := fun i =>
      congrArg (fun l : ReactionUnit => tget Timer.blank l.timers i) (strikeAt_rct _ _)
    refine ⟨t, ht, hw, fun hg => ?_, fun hg => ?_⟩
    · rw [if_pos hg] at hc
      rw [hc]
      exact ⟨rfl, fun i => by rw [← hp]; exact tget_tset (none : Option TimerRec) _ k i (some v)⟩
    · rw [if_neg (by simp [hg])] at hc
      rw [hc, applyTimerRec_eq, hi]
      refine ⟨rfl, fun i => ?_⟩
      rw [timer_putTimer, hi, ite_not]
  · intro c w first known
    have hrec : reactionRecOf (c.recordWord (.reaction r)) = reactionRecOf w := rfl
    have hfirst : recordFirst s.chip.ctl.unit (.reaction r) = first := rfl
    have hat : recordAt s.chip.ctl.unit (first + 3) = some (.reaction r, 3) := recordAt_reaction hr
    refine ⟨fun hk => ?_, fun hk => ?_⟩
    · have hv : c.validate (.reaction r) = .error .unknownCode := by
        simp only [Chip.validate, hrec, reactionRecOf_unknown hk, Option.map_none]
      obtain ⟨t, ht, hw, hc⟩ := commitWrite_wrote hs hm (id := .reaction r) (o := first + 3) rfl (by omega) hat d
      obtain ⟨h1, h2⟩ := refuseCommit_spec (.reaction r) .unknownCode c
      rw [commitRecord_refused hv] at hc
      rw [stagedLast_unit] at h2
      exact ⟨t, ht, hw, hc ▸ h1, hc ▸ h2⟩
    · obtain ⟨v, hv, hf⟩ := reactionRecOf_known (w := fun i => c.staged (2048 + 4 * r + i)) hk
      have hval : c.validate (.reaction r) = .ok (.reaction r v) := by
        simp only [Chip.validate, hrec]
        rw [hv]
        rfl
      obtain ⟨t, ht, hw, hc⟩ := gatedCommit_wrote hs hm (id := .reaction r) (o := first + 3) rfl (by omega) hat d rfl
        hval
      have hp : c.ctl.pendingReactions = s.chip.ctl.pendingReactions := strikeAt_ctl_pendingReactions _ _
      have hi : ∀ i, c.reaction i = s.chip.reaction i := fun i =>
        congrArg (fun l : ReactionUnit => tget ReactionRec.builtIn l.reactions i) (strikeAt_rct _ _)
      refine ⟨t, v, ht, hw, hf.trigger, hf.state, hf.action, hf.enabled, hf.once,
        fun h => hf.triggerObj.trans (clampTriggerObj_small _ h),
        fun h => hf.actionObj.trans (clampActionObj_small _ h), fun h => hf.triggerObj.trans ?_,
        fun h => hf.actionObj.trans ?_, fun hg => ?_, fun hg => ?_⟩
      · rcases h with h | h <;> rw [h] <;> rfl
      · rw [h]
        rfl
      · rw [if_pos hg] at hc
        rw [hc]
        exact ⟨rfl, fun i => by rw [← hp]; exact tget_tset (none : Option ReactionRec) _ r i (some v)⟩
      · rw [if_neg (by simp [hg])] at hc
        rw [hc]
        exact ⟨rfl, fun i => by rw [← hi]; exact reaction_putReaction _ _ _ _⟩

/-! ### The gate (R16, R22) -/

/-- With no line, timer, printer or reaction commit pending, the health, print and aging commits are what the gate
holds. -/
theorem pendingCommits_of_nil {k : ControlUnit} (hl : k.pendingLines = []) (ht : k.pendingTimers = [])
    (hp : k.pendingPrinters = []) (hr : k.pendingReactions = []) : k.pendingCommits =
      (k.pendingHealth.map RecordVal.health).toList ++ (k.pendingPrint.map RecordVal.print).toList ++
        (k.pendingAging.map RecordVal.aging).toList := by
  simp [ControlUnit.pendingCommits, hl, ht, hp, hr]

theorem foldl_proceed_map {α : Type} (g : Give) (f : α → RecordVal) (o : Option α) (c : Chip) :
    (o.map f).toList.foldl (fun c v => proceed g v c) c = (o.map fun v => proceed g (f v) c).getD c := by
  cases o <;> rfl

/-- A pending health, print or aging commit, where there is one, proceeds by its class (R21). -/
theorem proceed_health (g : Give) (o : Option HealthRec) (c : Chip) :
    (o.map fun v => proceed g (.health v) c).getD c = c.withCtl { c.ctl with
      health := if c.ctl.mode = .run then c.ctl.health else o.getD c.ctl.health
      awaitingHealth := if c.ctl.mode = .run ∧ o.isSome = true then o else c.ctl.awaitingHealth } := by
  cases o with
  | none =>
    simp only [Option.map_none, Option.getD_none, ite_self, Option.isSome_none, Bool.false_eq_true, and_false, if_false]
    rfl
  | some v => by_cases hm : c.ctl.mode = .run <;> simp [proceed, takeEffect, hm]

theorem proceed_print (g : Give) (o : Option PrintRec) (c : Chip) :
    (o.map fun v => proceed g (.print v) c).getD c = c.withCtl { c.ctl with print := o.getD c.ctl.print } := by
  cases o <;> rfl

theorem proceed_aging (g : Give) (o : Option AgingRec) (c : Chip) :
    (o.map fun v => proceed g (.aging v) c).getD c = c.withCtl { c.ctl with aging := o.getD c.ctl.aging } := by
  cases o <;> rfl

/-- The gate opened: the commits it held proceed by their classes (R21, R22). -/
theorem gateWrite_opens {g : Give} {c : Chip} (hl : c.ctl.pendingLines = []) (ht : c.ctl.pendingTimers = [])
    (hp : c.ctl.pendingPrinters = []) (hr : c.ctl.pendingReactions = []) : gateWrite g 0 c = c.withCtl { c.ctl with
      gateClosed := false
      pendingHealth := none
      pendingPrint := none
      pendingAging := none
      print := c.ctl.pendingPrint.getD c.ctl.print
      aging := c.ctl.pendingAging.getD c.ctl.aging
      health := if c.ctl.mode = .run then c.ctl.health else c.ctl.pendingHealth.getD c.ctl.health
      awaitingHealth :=
        if c.ctl.mode = .run ∧ c.ctl.pendingHealth.isSome = true then c.ctl.pendingHealth
        else c.ctl.awaitingHealth } := by
  have hd : dropPending (c.withCtl { c.ctl with gateClosed := false }) = c.withCtl { c.ctl with
      gateClosed := false, pendingHealth := none, pendingPrint := none, pendingAging := none } := by
    rw [dropPending, ← hl, ← ht, ← hp, ← hr]
    rfl
  rw [gateWrite, if_pos rfl, pendingCommits_of_nil hl ht hp hr, hd]
  simp only [List.foldl_append, foldl_proceed_map, proceed_health, proceed_print, proceed_aging]
  rfl

/-! ### The masks (R16, R179) -/

theorem maskHas_loOctet (d : Word) (k : EvClass) : maskHas (loOctet d) k = d.getLsbD k.code := by
  have hk : k.code < 8 := by cases k <;> decide
  simp [maskHas, loOctet, hk]

/-- Settles O29: the gate, the notice mask with NOTICE re-driven, and the record mask, each written alone. -/
theorem gateAndMasksAreTakenAtOnce : Obligations.GateAndMasksAreTakenAtOnce := by
  unfold Obligations.GateAndMasksAreTakenAtOnce
  intro d pins s hs c
  have gate : ∃ t, exec (.updateGate d pins) s = .next t ∧ s.wrote t 26 d ∧ t.chip = gateWrite top d c :=
    processorWrite_wrote (s := s.setPins pins) hs (o := 26) (by decide) d
  refine ⟨fun hd => ?_, fun hd hl ht hp hr => ?_, ?_, ?_⟩
  · obtain ⟨t, ht, hw, hc⟩ := gate
    exact ⟨t, ht, hw, hc.trans (if_neg hd)⟩
  · obtain ⟨t, ht', hw, hc⟩ := gate
    rw [hd, gateWrite_opens hl ht hp hr] at hc
    refine ⟨t, ht', hw, hc.trans ?_⟩
    simp [c, State.struckAt]
  · obtain ⟨t, ht, hw, hc⟩ := processorWrite_wrote hs (o := 27) (by decide) d
    refine ⟨t, ht, hw, ?_⟩
    rw [hc]
    refine ⟨rfl, ?_⟩
    simp only [← maskHas_loOctet]
    exact noticeLow_iff
  · exact processorWrite_wrote hs (o := 28) (by decide) d

end Sys2Proof.Machine

/-! PROOF. The command word: what is refused (R26), and the part at pin reset (R24). -/

namespace Sys2Proof.Machine

/-! ### The command word -/

theorem commandOf_code (k : CommandCode) : commandOf k.code = some k := by
  cases k <;> rfl

theorem commandOf_none {n : Nat} (h : ∀ k : CommandCode, k.code ≠ n) : commandOf n = none := by
  simp [commandOf, h]

/-- A strike does not look at the lines' levels. -/
theorem strikeAt_withPins (a : Nat) (v : Octet) (c : Chip) : strikeAt a (c.withPins v) = (strikeAt a c).withPins v := by
  have hd : ∀ (e : Entry) (d : Chip), depositStruck (d.withPins v) e = (depositStruck d e).withPins v := fun e d => by
    unfold depositStruck
    split <;> rfl
  have hf : ∀ (l : List Entry) (d : Chip), l.foldl depositStruck (d.withPins v) =
      (l.foldl depositStruck d).withPins v := fun l => by
    induction l with
    | nil => exact fun d => rfl
    | cons e l ih => exact fun d => by simp only [List.foldl_cons, hd, ih]
  exact hf _ (c.withPath { c.path with queue := (c.path.queue.map (strikeEntry a)).filter fun e => !e.allStruck })

theorem commandWord_code_lt {i : Instr} {code : Nat} {tag : Octet} (h : commandWord i = some (code, tag)) :
    code < 256 := by
  cases i <;> cases h
  case unknownCommand | commandRefused => exact BitVec.isLt _
  all_goals decide

/-- Every row that writes a command word writes it, and the control unit of the struck part takes it (R26). -/
theorem commandWord_wrote {i : Instr} {code : Nat} {tag : Octet} {s : State} (h : commandWord i = some (code, tag))
    (hs : s.busFree) : ∃ v t, exec i s = .next t ∧ s.commanded t code tag ∧
      t.chip = takeCommand top (octetPair code tag.toNat) ((s.setPins v).struckAt 0) := by
  have hi : s.chip.shown i = s.chip.wordWrite 0 (octetPair code tag.toNat) := by simp only [Chip.shown, h]
  obtain ⟨t, ht, hw, hc⟩ := processorWrite_wrote (s := s.setPins (levelsOf i s.chip.pins)) hs (o := 0) (by decide)
    (octetPair code tag.toNat)
  refine ⟨_, t, ?_, hw, hc⟩
  rw [exec_shown hi, ← present_presented]
  exact ht

/-- The same with no command in progress and one that the mode allows: it is performed. -/
theorem command_performed {s : State} (h : s.commandFree) {k : CommandCode} (hk : k.allowed s.chip.ctl.mode = true)
    (tag : Octet) : ∃ t, commandWrite k.code tag s = .next t ∧ s.commanded t k.code tag ∧
      t.chip = performCommand top k tag (s.struckAt 0) := by
  obtain ⟨hb, hc⟩ := h
  obtain ⟨t, ht, hw, he⟩ := processorWrite_wrote hb (o := 0) (by decide) (octetPair k.code tag.toNat)
  have hl : k.code % 256 = k.code := by cases k <;> rfl
  have hn : (s.struckAt 0).ctl.command = none := (strikeAt_keeps _ _).2 hc
  refine ⟨t, ht, hw, he.trans ?_⟩
  exact takeCommand_performs top tag hn (by rw [hl]; exact commandOf_code k) (by rwa [struckAt_mode])

/-! ### Replies -/

theorem replyAfter_over (tag : Octet) (l : List Nat) (d : Detail) (n : Nat) (c : Chip) :
    replyAfter tag l d n c = c.over (replyAfter tag l d n c) := by
  obtain ⟨hk, -, hf, hst, hh, hp, hr, hpi, hca, hra⟩ := replyAfter_keeps tag l d n c
  exact Chip.eq_of_units hra hca hpi rfl hk hf hst hh hp hr rfl

theorem replyAfter_grew (tag : Octet) (l : List Nat) (d : Detail) (n : Nat) (c : Chip) :
    c.grew (replyAfter tag l d n c) :=
  formDeposit_grew .control (.reply l) (c.base + 5)
    [octetPair (if d = .none then 1 else 2) tag.toNat, wordNat d.code, wordNat n]
    (c.setCommand (some { tag := tag, phase := .replying }))

theorem replyAfter_other {o : Owner} (h : o ≠ .control) (tag : Octet) (l : List Nat) (d : Detail) (n : Nat) (c : Chip) :
    c.formed (replyAfter tag l d n c) o [] :=
  formDeposit_other h (.reply l) (c.base + 5)
    [octetPair (if d = .none then 1 else 2) tag.toNat, wordNat d.code, wordNat n]
    (c.setCommand (some { tag := tag, phase := .replying }))

/-- What a reply makes of the queue and of the event unit, and what it leaves. -/
theorem reply_did (tag : Octet) (m : Nat) (d : Detail) (n : Nat) (c : Chip) : c.did (reply tag m d n c) tag d n [] :=
  ⟨reply_replied _ _ _ _ _, replyAfter_grew _ _ _ _ _,
    ⟨(replyAfter_keeps _ _ _ _ _).2.1, replyAfter_other (by decide) _ _ _ _ _⟩, replyAfter_formed _ _ _ _ _,
    replyAfter_other (by decide) _ _ _ _ _, replyAfter_other (by decide) _ _ _ _ _⟩

theorem reply_refusedWith (tag : Octet) (m : Nat) (d : Detail) (c : Chip) :
    c.refusedWith (reply tag m d 0 c) tag d :=
  ⟨reply_did _ _ _ _ _, replyAfter_over _ _ _ _ _⟩

theorem logged_commandRefused (a b : Octet) :
    (evCommandRefused a b).logged = .plain .control 4 0 (octetPair a.toNat b.toNat) 0 :=
  congrArg (Logged.plain .control 4 0 (octetPair a.toNat b.toNat)) octetPair_zero

/-- The command word strikes at the control area's base, whatever the lines' levels. -/
theorem struckAt_zero_withPins (s : State) (v : Octet) :
    (s.setPins v).struckAt 0 = (strikeAt s.chip.base s.chip).withPins v := by
  rw [State.struckAt, Nat.add_zero]
  exact strikeAt_withPins _ _ _

/-- A refused command keeps the lines' levels, so the struck part it is compared with is known. -/
theorem struckAt_pins_of {s : State} {v : Octet} {t : Chip} (h : t.pins = ((s.setPins v).struckAt 0).pins) :
    strikeAt s.chip.base { s.chip with pins := t.pins } = (s.setPins v).struckAt 0 := by
  have hv : t.pins = v := h.trans (strikeAt_pins _ _)
  rw [hv, struckAt_zero_withPins, ← strikeAt_withPins]
  rfl

/-- Settles O32: the three ways a command word is not performed. -/
theorem commandsAreRefused : Obligations.CommandsAreRefused := by
  unfold Obligations.CommandsAreRefused
  intro i code tag s hi hs c
  obtain ⟨v, t, ht, hw, hc⟩ := commandWord_wrote hi hs
  have hcode : (hiOctet (octetPair code tag.toNat)).toNat = code := by
    rw [hiOctet_octetPair, Nat.mod_eq_of_lt (commandWord_code_lt hi)]
  have hm : ((s.setPins v).struckAt 0).ctl.mode = s.chip.ctl.mode := struckAt_mode _ _
  have hct : t.chip.pins = ((s.setPins v).struckAt 0).pins → c t = (s.setPins v).struckAt 0 := struckAt_pins_of
  have hn : s.chip.ctl.command = none → ((s.setPins v).struckAt 0).ctl.command = none := fun h =>
    (strikeAt_keeps _ (s.setPins v).chip).2 h
  have hcom : (strikeAt s.chip.base s.chip).ctl.command = ((s.setPins v).struckAt 0).ctl.command := by
    rw [struckAt_zero_withPins]
    rfl
  generalize (s.setPins v).struckAt 0 = e at hc hm hct hn hcom
  have refused : ∀ x : Detail, t.chip = reply tag e.path.serial x 0 e → (c t).refusedWith t.chip tag x := by
    intro x hr
    obtain ⟨-, -, -, -, -, -, -, hp, -⟩ := replyAfter_keeps tag (e.waitingSince e.path.serial) x 0 e
    rw [hct (hr ▸ hp), hr]
    exact reply_refusedWith _ _ _ _
  refine ⟨fun h hk => ⟨t, ht, hw, refused _ ?_⟩, fun h k hk ha => ⟨t, ht, hw, refused _ ?_⟩, fun h => ⟨t, ht, hw, ?_⟩⟩
  · simp [hc, takeCommand, hn h, hcode, commandOf_none hk]
  · have hco : commandOf code = some k := hk ▸ commandOf_code k
    simp only [hc, takeCommand, hn h, hcode, hco, hm, ha, loOctet_octetPair]
    rfl
  · have hr : t.chip = recordEvent (evCommandRefused (hiOctet (octetPair code tag.toNat)) tag) e := by
      have hs' : e.ctl.command.isSome = true := Option.isSome_iff_ne_none.mpr (hcom ▸ h)
      simp [hc, takeCommand, hs']
    have hl := logged_commandRefused (hiOctet (octetPair code tag.toNat)) tag
    rw [hcode] at hl
    rw [hct (by rw [hr, recordEvent_pins]), hr, ← hl]
    exact ⟨recordEvent_ctl _ _, recordEvent_quiet _ _⟩

/-! ### Pin reset (R24) -/

/-- Settles O2: the fall of RESET puts every unit at its values after pin reset, and reads of empty tables give the
built-in ones. -/
theorem pinResetRestoresTheBuiltIns : Obligations.PinResetRestoresTheBuiltIns := by
  unfold Obligations.PinResetRestoresTheBuiltIns
  intro b s
  refine ⟨_, rfl, fun c hc => ?_⟩
  have hu : c.ctl = ControlUnit.reset ∧ c.rct = ReactionUnit.reset := by
    rcases hc with rfl | rfl
    · exact ⟨congrArg Chip.ctl (resetFall_chip b s), congrArg Chip.rct (resetFall_chip b s)⟩
    · exact ⟨rfl, rfl⟩
  obtain ⟨hctl, hrct⟩ := hu
  simp only [Chip.awaitingPrinter, Chip.staged, Chip.line, Chip.timer, Chip.printerRec, Chip.reaction, hctl, hrct]
  exact ⟨rfl, rfl, rfl, rfl, rfl, fun _ => rfl, rfl, rfl, rfl, rfl, fun _ => rfl, rfl, rfl, rfl, rfl, rfl, rfl, rfl,
    rfl, rfl, rfl, rfl, fun _ => rfl, fun _ => ⟨rfl, rfl⟩, fun _ => rfl, fun _ => rfl, rfl, rfl⟩

end Sys2Proof.Machine

/-! PROOF. STATUS and INQUIRE (R31, R32). -/

namespace Sys2Proof.Machine

/-! ### Commands that form works and a reply -/

theorem over_trans {c d f : Chip} (h : d = c.over d) (k : f = d.over f) : f = c.over f :=
  calc f = d.over f := k
    _ = (c.over d).over f := by rw [← h]
    _ = c.over f := rfl

theorem formDeposit_over (o : Owner) (p : Purpose) (a : Nat) (ws : List Word) (c : Chip) :
    formDeposit o p a ws c = c.over (formDeposit o p a ws c) := by
  apply Chip.eq_of_units <;> simp [Chip.over]

/-- A command whose work `d` has formed the works `l` of the control unit alone, and its reply after them. -/
theorem reply_after {c d : Chip} {l : List Work} (tag : Octet) (m : Nat) (x : Detail) (n : Nat) (hg : c.grew d)
    (he : d.evt = c.evt) (hl : c.formed d .control l) (ho : ∀ o, o ≠ .control → c.formed d o []) :
    let e := reply tag m x n d
    e.replied tag x n ∧ c.grew e ∧ c.logs e [] ∧ c.formed e .control (l ++ [d.replyWork tag x n]) ∧
      c.formed e .frame [] ∧ c.formed e .print [] := by
  obtain ⟨h1, h2, ⟨h3, h4⟩, h5, h6, h7⟩ := reply_did tag m x n d
  exact ⟨h1, grew_trans hg h2, ⟨h3.trans he, formed_trans (ho _ (by decide)) h4⟩, formed_trans hl h5,
    formed_trans (ho _ (by decide)) h6, formed_trans (ho _ (by decide)) h7⟩

theorem replyWork_congr {c d : Chip} (h : c.base = d.base) (tag : Octet) (x : Detail) (n : Nat) :
    c.replyWork tag x n = d.replyWork tag x n := by
  simp only [Chip.replyWork, h]

/-! ### Bits of words -/

theorem testBit_bitNat (b : Bool) (i : Nat) : (bitNat b).testBit i = (decide (i = 0) && b) := by
  cases b <;> cases i <;> simp [bitNat, Nat.testBit_succ]

theorem flagBits_succ (n : Nat) (f : Nat → Bool) : flagBits (n + 1) f = 2 ^ n * bitNat (f n) + flagBits n f := by
  simp [flagBits, List.range_succ]
  ring

theorem flagBits_lt (n : Nat) (f : Nat → Bool) : flagBits n f < 2 ^ n := by
  induction n with
  | zero => exact Nat.one_pos
  | succ n ih =>
    have hb : bitNat (f n) ≤ 1 := by cases f n <;> decide
    have := Nat.mul_le_mul_left (2 ^ n) hb
    rw [flagBits_succ, pow_succ]
    omega

/-- A word of flags shows each flag at its own place. -/
theorem testBit_flagBits (n : Nat) (f : Nat → Bool) (i : Nat) : (flagBits n f).testBit i = (decide (i < n) && f i) := by
  induction n with
  | zero => simp [flagBits]
  | succ n ih =>
    rw [flagBits_succ, Nat.testBit_two_pow_mul_add _ (flagBits_lt n f), ih, testBit_bitNat]
    rcases Nat.lt_trichotomy i n with h | rfl | h
    · simp [h, Nat.lt_succ_of_lt h]
    · simp
    · simp [show ¬ i < n by omega, show ¬ i < n + 1 by omega, show ¬ i - n = 0 by omega]

theorem bitOf_octetPair_low {h l i : Nat} (hi : i < 8) : bitOf (octetPair h l) i = l.testBit i := by
  have he : h % 256 * 256 + l % 256 = 2 ^ 8 * (h % 256) + l % 2 ^ 8 := by omega
  rw [octetPair, ← wordNat, bitOf_wordNat (by omega), he, Nat.testBit_two_pow_mul_add _ (Nat.mod_lt _ (by decide)),
    if_pos hi, Nat.testBit_mod_two_pow, decide_eq_true hi, Bool.true_and]

theorem bitOf_octetPair_high {h l i : Nat} (hi : i < 8) : bitOf (octetPair h l) (8 + i) = h.testBit i := by
  have he : h % 256 * 256 + l % 256 = 2 ^ 8 * (h % 2 ^ 8) + l % 2 ^ 8 := by omega
  rw [octetPair, ← wordNat, bitOf_wordNat (by omega), he, Nat.testBit_two_pow_mul_add _ (Nat.mod_lt _ (by decide)),
    if_neg (by omega), Nat.add_sub_cancel_left, Nat.testBit_mod_two_pow, decide_eq_true hi, Bool.true_and]

/-! ### STATUS (R31) -/

/-- Word 9 of the snapshot: a flag a pending or awaiting commit, in its place. -/
theorem bitOf_statusPending (v : ControlUnit) :
    let w := wordNat (statusPending v)
    bitOf w 0 = v.pendingHealth.isSome ∧ bitOf w 15 = v.awaitingHealth.isSome ∧
      bitOf w 1 = v.pendingPrint.isSome ∧ bitOf w 2 = v.pendingAging.isSome ∧
      (∀ l < 8, bitOf w (3 + l) = (tget none v.pendingLines l).isSome) ∧
      ∀ k < 4, bitOf w (11 + k) = (tget none v.pendingTimers k).isSome := by
  let f : Nat → Bool := fun i =>
    if i = 0 then v.pendingHealth.isSome else if i = 1 then v.pendingPrint.isSome
    else if i = 2 then v.pendingAging.isSome else if i < 11 then (tget none v.pendingLines (i - 3)).isSome
    else if i < 15 then (tget none v.pendingTimers (i - 11)).isSome else v.awaitingHealth.isSome
  have hf : statusPending v = flagBits 16 f := by
    simp [statusPending, flagBits, List.range_succ, f]
    ring
  have hb : ∀ i < 16, bitOf (wordNat (statusPending v)) i = f i := fun i hi => by
    rw [bitOf_wordNat hi, hf, testBit_flagBits, decide_eq_true hi, Bool.true_and]
  refine ⟨hb 0 (by decide), hb 15 (by decide), hb 1 (by decide), hb 2 (by decide), fun l hl => ?_, fun k hk => ?_⟩
  · rw [hb _ (by omega)]
    simp [f, show 3 + l < 11 by omega, show ¬ 3 + l = 1 by omega, show ¬ 3 + l = 2 by omega]
  · rw [hb _ (by omega)]
    simp [f, show 11 + k < 15 by omega, show ¬ 11 + k = 1 by omega, show ¬ 11 + k = 2 by omega]

theorem countIf_stationNumbers (P : Nat → Prop) [DecidablePred P] :
    countIf stationNumbers (fun n => decide (P n)) =
      ((List.range 255).filter fun n => decide (n ≠ 0 ∧ P n)).length := by
  have hr : List.range 255 = 0 :: stationNumbers := List.range_succ_eq_map
  have hs : ∀ n ∈ stationNumbers, n ≠ 0 := by simp [stationNumbers]
  rw [hr, List.filter_cons_of_neg (by simp), countIf]
  refine congrArg List.length (List.filter_congr fun n hn => ?_)
  simp [hs n hn]

theorem wordNat_octet (v : Octet) : wordNat v.toNat = octetPair 0 v.toNat := by
  have := v.isLt
  simp only [octetPair, Nat.mod_eq_of_lt this, Nat.zero_mod, Nat.zero_mul, Nat.zero_add]
  rfl

/-- Settles O36: the snapshot's deposit, then the reply; each word of the snapshot read by its bits. -/
theorem statusDepositsASnapshot : Obligations.StatusDepositsASnapshot := by
  unfold Obligations.StatusDepositsASnapshot
  intro tag pins s hs hm c count
  obtain ⟨t, ht, hw, hc⟩ := command_performed (s := s.setPins pins) hs (k := .status) (decide_eq_true hm) tag
  have hbase : c.base = s.chip.base := struckAt_base _ _
  have hdep := formDeposit_over .control .snapshot (c.base + 8) (statusWords c) c
  have hwork := replyWork_congr ((congrArg Chip.base hdep).trans hbase) tag .none 0
  have hbit : ∀ f p, p < 8 → (flagBits 8 f).testBit p = f p := fun f p hp => by
    rw [testBit_flagBits, decide_eq_true hp, Bool.true_and]
  obtain ⟨h1, h2, h3, h4, h5, h6⟩ := reply_after tag c.path.serial .none 0
    (formDeposit_grew .control .snapshot (c.base + 8) (statusWords c) c) (formDeposit_evt c _ _ _ _)
    (formDeposit_formed _ _ _ _ _) fun o ho => formDeposit_other ho _ _ _ _
  obtain ⟨b0, b15, b1, b2, bl, bt⟩ := bitOf_statusPending c.ctl
  refine ⟨t, statusWords c, ht, hw, ?_⟩
  rw [hc, ← hwork, ← hbase]
  refine ⟨h1, over_trans hdep (replyAfter_over _ _ _ _ _), h2, h3, h5, h6, h4, rfl, rfl, b0, b15, b1, b2, bl, bt,
    fun p hp => ⟨?_, ?_⟩, fun r hr => ?_, rfl, rfl, ?_, ?_, rfl, rfl, rfl, fun l hl => ⟨?_, ?_⟩, wordNat_octet _, rfl,
    ?_, rfl⟩
  · exact (bitOf_octetPair_low hp).trans (hbit _ p hp)
  · exact (bitOf_octetPair_high hp).trans (hbit _ p hp)
  · refine (bitOf_wordNat hr).trans ?_
    rw [testBit_flagBits, decide_eq_true hr, Bool.true_and]
  · exact congrArg wordNat (countIf_stationNumbers fun n => (c.station n).kind = .legacy)
  · exact congrArg wordNat (countIf_stationNumbers fun n => (c.station n).kind = .proxy)
  · exact (bitOf_octetPair_low hl).trans (hbit _ l hl)
  · exact (bitOf_octetPair_high hl).trans (hbit _ l hl)
  · exact congrArg (fun v : BitVec 7 => wordNat v.toNat) (strikeAt_cab _ _)

/-! ### INQUIRE (R32) -/

/-- The part after reset, but for job 0: SUSPENDED, not closed, and its resume state SUSPENDED too. -/
def suspendedTwice : Chip := Chip.reset.putJob 0 { Job.blank with state := .suspended, resume := .suspended }

/-- The resume state's code 4 runs out of bits 3 and 4 of the JOBS record into bit 5, which shows an open job
closed. -/
theorem jobsRecord_suspendedTwice : bitOf ((jobsRecord suspendedTwice 0).getD 0 0) 5 = true ∧
    (suspendedTwice.job 0).closed = .no := by decide

/-- Refutes O37: in a JOBS record bits 3 and 4 are given for a resume state other than SUSPENDED only, but bit 5, which
that state's code spoils, for every one. -/
theorem not_inquireDepositsRecords : ¬ Obligations.InquireDepositsRecords := by
  unfold Obligations.InquireDepositsRecords
  rintro ⟨-, h⟩
  obtain ⟨-, -, -, -, -, -, ⟨-, hjob⟩, -⟩ := h suspendedTwice 0 (by decide)
  obtain ⟨-, -, -, hclosed, -⟩ := hjob (by decide) (by decide) (by decide)
  obtain ⟨hbit, hopen⟩ := jobsRecord_suspendedTwice
  simp only [hopen] at hclosed
  exact Bool.false_ne_true (hclosed.symm.trans hbit)

end Sys2Proof.Machine

/-! PROOF. Operations repeated over the numbers of a table, then LOAD, START and RESTART (R27, R28, R30). -/

namespace Sys2Proof.Machine

/-! ### Operations repeated over the numbers of a table -/

/-- An operation that makes `val n` of entry `n` of a table, whatever it does to the part as long as `P` holds, taken of
each number of a list once. -/
theorem foldl_table {α : Type} {get : Chip → Nat → α} {step : Chip → Nat → Chip} {val : Nat → α → α}
    {P : Chip → Prop} {l : List Nat} (hP : ∀ d, ∀ n ∈ l, P d → P (step d n))
    (hget : ∀ d, ∀ n ∈ l, P d → ∀ k, get (step d n) k = if k = n then val n (get d k) else get d k)
    (hl : l.Nodup) {c : Chip} (hc : P c) :
    P (l.foldl step c) ∧ ∀ k, get (l.foldl step c) k = if k ∈ l then val k (get c k) else get c k := by
  induction l generalizing c with
  | nil => exact ⟨hc, fun k => by simp⟩
  | cons n l ih =>
    obtain ⟨hn, hl⟩ := List.nodup_cons.mp hl
    obtain ⟨h1, h2⟩ := ih (fun d m hm => hP d m (List.mem_cons_of_mem _ hm))
      (fun d m hm => hget d m (List.mem_cons_of_mem _ hm)) hl (hP c n (List.mem_cons_self ..) hc)
    refine ⟨h1, fun k => ?_⟩
    rw [List.foldl_cons, h2, hget c n (List.mem_cons_self ..) hc]
    by_cases hk : k = n
    · subst hk
      simp [hn]
    · simp [hk]

/-! ### What is read of a unit's tables goes by that unit -/

theorem Chip.station_of_stn {c d : Chip} (h : d.stn = c.stn) (n : Nat) : d.station n = c.station n := by
  simp only [Chip.station, h]

theorem Chip.trunk_of_hlth {c d : Chip} (h : d.hlth = c.hlth) (t : Nat) : d.trunk t = c.trunk t := by
  simp only [Chip.trunk, h]

theorem Chip.job_of_prt {c d : Chip} (h : d.prt = c.prt) (j : Nat) : d.job j = c.job j := by
  simp only [Chip.job, h]

theorem Chip.printer_of_prt {c d : Chip} (h : d.prt = c.prt) (p : Nat) : d.printer p = c.printer p := by
  simp only [Chip.printer, h]

theorem Chip.timer_of_rct {c d : Chip} (h : d.rct = c.rct) (k : Nat) : d.timer k = c.timer k := by
  simp only [Chip.timer, h]

theorem Chip.line_of_rct {c d : Chip} (h : d.rct = c.rct) (l : Nat) : d.line l = c.line l := by
  simp only [Chip.line, h]

/-! ### Lines (R168, R169) -/

theorem line_putLine (l k : Nat) (v : Line) (c : Chip) : (c.putLine l v).line k = if k = l then v else c.line k :=
  tget_tset _ _ _ _ _

/-- The level a line is driven to goes by the mode, the states and the line's record and kept level. -/
theorem driveLevel_congr {c d : Chip} {v w : Line} (hm : d.ctl.mode = c.ctl.mode) (ht : d.hlth.trunks = c.hlth.trunks)
    (hp : d.prt.printers = c.prt.printers) (hr : w.record = v.record) (hk : w.kept = v.kept) :
    driveLevel d w = driveLevel c v := by
  have htr : ∀ k, d.trunk k = c.trunk k := fun k => congrArg (tget Trunk.absent · k) ht
  have hpr : ∀ p, d.printer p = c.printer p := fun p => congrArg (tget Printer.blank · p) hp
  unfold driveLevel
  rw [hr, hk, hm, htr, hpr]

theorem redriveLines_driven (c : Chip) : (redriveLines c).linesDriven := by
  intro l hl
  have h : (redriveLines c).drive l = driveLevel c (c.line l) := by
    simp [Chip.drive, redriveLines, hl]
  exact h

theorem linesDriven_congr {c d : Chip} (h : c.linesDriven) (hd : d.rct.driven = c.rct.driven)
    (hm : d.ctl.mode = c.ctl.mode) (ht : d.hlth.trunks = c.hlth.trunks) (hp : d.prt.printers = c.prt.printers)
    (hl : ∀ l, (d.line l).record = (c.line l).record ∧ (d.line l).kept = (c.line l).kept) : d.linesDriven := by
  intro l hl8
  obtain ⟨hr, hk⟩ := hl l
  rw [driveLevel_congr hm ht hp hr hk, ← h l hl8, Chip.drive, hd]
  rfl

/-- What a pin shows goes by the levels driven, those held, and the line's polarity. -/
theorem pinActive_congr {c d : Chip} {l : Nat} (hd : d.rct.driven = c.rct.driven) (hp : d.pins = c.pins)
    (hr : (d.line l).record = (c.line l).record) : d.pinActive l = c.pinActive l := by
  simp only [Chip.pinActive, Chip.pinHigh, Chip.drive, hd, hp, hr]

/-- Nothing but lines' sampled levels sets `d` apart from `c`. -/
def Chip.sampledFrom (c d : Chip) : Prop :=
  d = c.withRct { c.rct with lines := d.rct.lines } ∧
    ∀ l, (d.line l).record = (c.line l).record ∧ (d.line l).kept = (c.line l).kept

theorem sampledFrom_refl (c : Chip) : c.sampledFrom c := ⟨rfl, fun _ => ⟨rfl, rfl⟩⟩

theorem Chip.sampledFrom.pinActive {c d : Chip} (h : c.sampledFrom d) (l : Nat) : d.pinActive l = c.pinActive l := by
  obtain ⟨he, hl⟩ := h
  exact pinActive_congr (by rw [he]; rfl) (by rw [he]; rfl) (hl l).1

theorem Chip.sampledFrom.put {c d : Chip} (h : c.sampledFrom d) (l : Nat) (b : Bool) :
    c.sampledFrom (d.putLine l { d.line l with sampled := b }) := by
  obtain ⟨he, hl⟩ := h
  refine ⟨?_, fun k => ?_⟩
  · conv_lhs => rw [Chip.putLine, he]
    rfl
  · rw [line_putLine]
    split
    · next hk =>
      subst hk
      exact hl k
    · exact hl k

/-- Every sampled level taken from its pin (R169). -/
theorem sampleLines_spec (c : Chip) : c.sampledFrom (sampleLines c) ∧ ∀ l, (sampleLines c).line l =
    if l < 8 ∧ (c.line l).record.fn.samples = true then { c.line l with sampled := c.pinActive l } else c.line l := by
  obtain ⟨h1, h2⟩ := foldl_table (get := Chip.line) (P := c.sampledFrom) (l := List.range 8)
    (step := fun c l => if (c.line l).record.fn.samples then c.putLine l { c.line l with sampled := c.pinActive l } else c)
    (val := fun l v => if v.record.fn.samples then { v with sampled := c.pinActive l } else v)
    (fun d l _ hd => by split; exact hd.put _ _; exact hd)
    (fun d l _ hd k => by
      rw [hd.pinActive]
      split
      · next hs =>
        rw [line_putLine]
        split
        · next hk => subst hk; rw [if_pos hs]
        · rfl
      · next hs =>
        split
        · next hk => subst hk; rw [if_neg hs]
        · rfl)
    List.nodup_range (sampledFrom_refl c)
  refine ⟨h1, fun l => (h2 l).trans ?_⟩
  by_cases hl : l < 8 <;> simp [hl]

/-! ### Works and replies -/

theorem grew_of_path {c d : Chip} (h : d.path = c.path) : c.grew d :=
  ⟨⟨[], by simp [h]⟩, fun o => ⟨[], by simp [Chip.waiting_of_path h]⟩, by rw [h], by rw [h]⟩

theorem formed_of_path {c d : Chip} (h : d.path = c.path) (o : Owner) : c.formed d o [] := by
  simp [Chip.formed, Chip.worksOf, h, Chip.waiting_of_path h]

/-- A command whose work forms nothing, and its reply. -/
theorem reply_did_of {c d : Chip} (hp : d.path = c.path) (he : d.evt = c.evt) (hb : d.base = c.base) (tag : Octet)
    (m : Nat) (x : Detail) (n : Nat) : c.did (reply tag m x n d) tag x n [] := by
  obtain ⟨h1, h2, h3, h4, h5, h6⟩ := reply_after tag m x n (grew_of_path hp) he (formed_of_path hp _)
    fun o _ => formed_of_path hp o
  rw [List.nil_append, replyWork_congr hb] at h4
  exact ⟨h1, h2, h3, h4, h5, h6⟩

/-! ### LOAD (R27) -/

/-- The fetches of `n` words from offset `off` of the control area at `base`, at most `fuel` of them. -/
def loadWorks (base : Nat) : Nat → Nat → Nat → List Work
  | 0, _, _ => []
  | fuel + 1, off, n =>
    if n = 0 then [] else .fetch (base + off) (min 16 n) :: loadWorks base fuel (off + 16) (n - 16)

theorem formFetch_over (o : Owner) (p : Purpose) (a n : Nat) (c : Chip) :
    formFetch o p a n c = c.over (formFetch o p a n c) := by
  apply Chip.eq_of_units <;> simp [Chip.over]

/-- LOAD's fetches: the control unit's works, and nothing else. -/
theorem formLoads_spec (fuel off n : Nat) (c : Chip) :
    let d := formLoads fuel off n c
    c.grew d ∧ d = c.over d ∧ d.evt = c.evt ∧ d.ctl = c.ctl ∧ c.formed d .control (loadWorks c.base fuel off n) ∧
      ∀ o, o ≠ .control → c.formed d o [] := by
  induction fuel generalizing off n c with
  | zero => exact ⟨grew_refl c, rfl, rfl, rfl, by simp [formLoads, loadWorks, Chip.formed], fun o _ => formed_of_path rfl o⟩
  | succ fuel ih =>
    unfold formLoads loadWorks
    by_cases hn : n = 0
    · rw [if_pos hn, if_pos hn]
      exact ⟨grew_refl c, rfl, rfl, rfl, formed_of_path rfl _, fun o _ => formed_of_path rfl o⟩
    · rw [if_neg hn, if_neg hn]
      have ho := formFetch_over .control (.loadFetch off) (c.base + off) (min 16 n) c
      have hb : (formFetch .control (.loadFetch off) (c.base + off) (min 16 n) c).base = c.base :=
        (congrArg Chip.base ho).trans rfl
      obtain ⟨h1, h2, h3, h4, h5, h6⟩ := ih (off + 16) (n - 16)
        (formFetch .control (.loadFetch off) (c.base + off) (min 16 n) c)
      rw [hb] at h5
      refine ⟨grew_trans (formFetch_grew _ _ _ _ _) h1, over_trans ho h2, h3.trans (formFetch_evt ..),
        h4.trans (formFetch_ctl ..), formed_trans (l := [_]) ?_ h5, fun o h => formed_trans (l := []) ?_ (h6 o h)⟩
      · simp [Chip.formed, formFetch_worksOf]
      · simp [Chip.formed, formFetch_worksOf, Ne.symm h]

/-- LOAD's fetches of the fixed part: words 26 to 119. -/
theorem loadWorks_fixed (base : Nat) : loadWorks base 6 26 94 =
    [.fetch (base + 26) 16, .fetch (base + 42) 16, .fetch (base + 58) 16, .fetch (base + 74) 16,
      .fetch (base + 90) 16, .fetch (base + 106) 14] := rfl

/-- LOAD taken: LOADING, the command in progress, and the first fetches. -/
theorem load_taken (tag : Octet) {c d : Chip} {base : Nat} (hb : c.base = base) (hd : d = takeLoad tag c) :
    d = (c.over d).setMode .loading ∧ c.grew d ∧ c.logs d [] ∧
      d.ctl.command = some { tag := tag, phase := .loading 6 0 [] } ∧ c.formed d .frame [] ∧ c.formed d .print [] ∧
      c.formed d .control
        [.fetch (base + 26) 16, .fetch (base + 42) 16, .fetch (base + 58) 16, .fetch (base + 74) 16,
          .fetch (base + 90) 16, .fetch (base + 106) 14] := by
  obtain ⟨h1, h2, h3, h4, h5, h6⟩ := formLoads_spec 6 26 94
    ((c.setMode .loading).setCommand (some { tag := tag, phase := .loading 6 0 [] }))
  rw [← hb, ← loadWorks_fixed]
  rw [← takeLoad, ← hd] at h1 h2 h3 h4 h5 h6
  have ho : ∀ o, o ≠ .control → c.formed d o [] := h6
  exact ⟨h2, h1, ⟨h3, ho _ (by decide)⟩, congrArg ControlUnit.command h4, ho _ (by decide), ho _ (by decide), h5⟩

/-! ### START (R28) -/

/-- A printer with no claim and no job that waits is not served. -/
theorem serve_idle (g : Give) {p : Nat} {c : Chip} (h : (c.printer p).claim = none ∧ (c.printer p).queue = []) :
    serve g p c = c := by
  obtain ⟨hc, hq⟩ := h
  have hn : c.nextClaimant p = none := by simp [Chip.nextClaimant, hq]
  have hf : c.nextFed p = none := by simp [Chip.nextFed, hc]
  have he : feed p c = c := by
    change feedN p (63 + 1) c = c
    simp only [feedN, hf]
  change serveN g (63 + 1) p c = c
  simp only [serveN, hn, he]

theorem startRefusal_eq (c : Chip) : c.startRefusal =
    if c.ctl.unitCommitted = false then some .noUnit
    else if (c.ctl.coaxRing.isSome && c.ctl.pairRing.isSome && c.ctl.transmitRing.isSome) = false then some .noRings
    else none := by
  have h : (c.ctl.coaxRing.isNone = true ∨ c.ctl.pairRing.isNone = true ∨ c.ctl.transmitRing.isNone = true) ↔
      (c.ctl.coaxRing.isSome && c.ctl.pairRing.isSome && c.ctl.transmitRing.isSome) = false := by
    simp only [← Option.not_isSome, Bool.not_eq_true', Bool.and_eq_false_iff, or_assoc]
  simp only [Chip.startRefusal, Bool.not_eq_true', h]

/-- START's work where nothing is claimed or waited for. -/
theorem startWork_idle (g : Give) {c : Chip} (hs : c.startRefusal = none)
    (hp : ∀ p, (c.printer p).claim = none ∧ (c.printer p).queue = []) :
    startWork g c = (.none, sampleLines (redriveLines (c.setMode .run))) := by
  have he := (sampleLines_spec (redriveLines (c.setMode .run))).1.1
  have hq : ∀ p, (sampleLines (redriveLines (c.setMode .run))).printer p = c.printer p := fun p => by
    rw [he]
    rfl
  simp only [startWork, hs]
  rw [List.foldl_fixed' (f := fun c p => serve g p c) fun p => serve_idle g (by rw [hq]; exact hp p)]

theorem answered_eq (tag : Octet) {f : Chip → Answer} {c d : Chip} {x : Detail} (h : f c = (x, d)) :
    answered tag f c = reply tag c.path.serial x 0 d := by
  rw [answered, h]

/-- START taken: RUN, the lines driven and sampled, the reply. -/
theorem started (tag : Octet) {c e : Chip} {m : Nat}
    (he : e = reply tag m .none 0 (sampleLines (redriveLines (c.setMode .run)))) :
    c.did e tag .none 0 [] ∧ e.linesDriven ∧
      e = ((c.over e).setMode .run).withRct { c.rct with lines := e.rct.lines, driven := e.rct.driven } ∧
      ∀ l, e.line l = if l < 8 ∧ (c.line l).record.fn.samples = true then
        { c.line l with sampled := e.pinActive l } else c.line l := by
  obtain ⟨⟨hd, hr⟩, hl⟩ := sampleLines_spec (redriveLines (c.setMode .run))
  have ho := replyAfter_over tag ((sampleLines (redriveLines (c.setMode .run))).waitingSince m) .none 0
    (sampleLines (redriveLines (c.setMode .run)))
  generalize sampleLines (redriveLines (c.setMode .run)) = d at he hd hr hl ho
  rw [← reply, ← he] at ho
  have hdid : c.did e tag .none 0 [] := by
    rw [he]
    exact reply_did_of (by rw [hd]; rfl) (by rw [hd]; rfl) (by rw [hd]; rfl) _ _ _ _
  have hrct : e.rct = d.rct := by rw [ho]; rfl
  have hdr : e.rct.driven = (redriveLines (c.setMode .run)).rct.driven := by rw [ho, hd]; rfl
  have hline : ∀ l, e.line l = d.line l := Chip.line_of_rct hrct
  refine ⟨hdid, linesDriven_congr (redriveLines_driven (c.setMode .run)) hdr (by rw [ho, hd]; rfl) (by rw [ho, hd]; rfl)
    (by rw [ho, hd]; rfl) fun l => by rw [hline]; exact hr l, ?_, fun l => ?_⟩
  · calc e = d.over e := ho
      _ = (((c.over e).setMode .run).withRct { c.rct with
            lines := d.rct.lines, driven := (redriveLines (c.setMode .run)).rct.driven }) := by
          conv_lhs => rw [hd]
          rfl
      _ = _ := by rw [← hrct, ← hdr]
  · rw [hline, pinActive_congr (c := redriveLines (c.setMode .run)) hdr (by rw [ho, hd]; rfl)
      (by rw [hline]; exact (hr l).1)]
    exact hl l

/-- Settles O33: LOAD's fetches, and START's refusals and its work. -/
theorem loadAndStartChangeTheMode : Obligations.LoadAndStartChangeTheMode := by
  unfold Obligations.LoadAndStartChangeTheMode
  refine ⟨fun tag s hs hm => ?_, fun tag pins s hs hm => ?_⟩
  · intro c
    obtain ⟨t, ht, hw, hc⟩ := command_performed hs (k := .load) (decide_eq_true hm) tag
    exact ⟨t, ht, hw, load_taken tag (struckAt_base s 0) hc⟩
  · intro c rings
    obtain ⟨t, ht, hw, hc⟩ := command_performed (s := s.setPins pins) hs (k := .start) (decide_eq_true hm) tag
    have hr : c.startRefusal = if s.chip.ctl.unitCommitted = false then some .noUnit
        else if rings = false then some .noRings else none := by
      rw [startRefusal_eq]
      simp [c, State.struckAt, rings]
    have he : t.chip = answered tag (startWork top) c := hc
    have refused : ∀ x, c.startRefusal = some x → ∃ t, exec (.start tag pins) s = .next t ∧ s.commanded t 2 tag ∧
        c.refusedWith t.chip tag x := fun x hx => by
      refine ⟨t, ht, hw, ?_⟩
      rw [he, answered, show startWork top c = (x, c) by simp only [startWork, hx]]
      exact reply_refusedWith _ _ _ _
    refine ⟨fun h => refused _ ?_, fun h hn => refused _ ?_, fun h hn hp => ⟨t, ht, hw, ?_⟩⟩
    · rw [hr, if_pos h]
    · rw [hr, if_neg (by simp [h]), if_pos hn]
    · rw [if_neg (by simp [h]), if_neg (by simp [hn])] at hr
      have hp' : ∀ p, (c.printer p).claim = none ∧ (c.printer p).queue = [] := fun p => by
        rw [Chip.printer_of_prt (d := c) (c := s.chip) (strikeAt_prt _ _)]
        exact hp p
      obtain ⟨h1, h2, h3, h4⟩ := started tag (he.trans (answered_eq tag (startWork_idle top hr hp')))
      refine ⟨h1, h2, h3, fun l => ?_⟩
      rw [h4, Chip.line_of_rct (d := c) (c := s.chip) (strikeAt_rct _ _)]

end Sys2Proof.Machine

/-! PROOF. RESTART and STOP (R29, R30). -/

namespace Sys2Proof.Machine

/-! ### What is written to a unit's tables -/

theorem station_putStation (n k : Nat) (v : Station) (c : Chip) :
    (c.putStation n v).station k = if k = n then v else c.station k :=
  tget_tset _ _ _ _ _

theorem trunk_putTrunk (t k : Nat) (v : Trunk) (c : Chip) :
    (c.putTrunk t v).trunk k = if k = t then v else c.trunk k :=
  tget_tset _ _ _ _ _

theorem printer_putPrinter (p k : Nat) (v : Printer) (c : Chip) :
    (c.putPrinter p v).printer k = if k = p then v else c.printer k :=
  tget_tset _ _ _ _ _

theorem job_putJob (j k : Nat) (v : Job) (c : Chip) : (c.putJob j v).job k = if k = j then v else c.job k :=
  tget_tset _ _ _ _ _

/-- Nothing but the station table sets `d` apart from `c`. -/
def Chip.tableFrom (c d : Chip) : Prop := d = c.withStn { c.stn with table := d.stn.table }

/-- Nothing but the trunks sets `d` apart from `c`. -/
def Chip.trunksFrom (c d : Chip) : Prop := d = c.withHlth { c.hlth with trunks := d.hlth.trunks }

/-- Nothing but the printers sets `d` apart from `c`. -/
def Chip.printersFrom (c d : Chip) : Prop := d = c.withPrt { c.prt with printers := d.prt.printers }

/-- Nothing but the timers sets `d` apart from `c`. -/
def Chip.timersFrom (c d : Chip) : Prop := d = c.withRct { c.rct with timers := d.rct.timers }

theorem Chip.tableFrom.put {c d : Chip} (h : c.tableFrom d) (n : Nat) (v : Station) : c.tableFrom (d.putStation n v) := by
  unfold Chip.tableFrom
  conv_lhs => rw [Chip.putStation, h]
  rfl

theorem Chip.trunksFrom.put {c d : Chip} (h : c.trunksFrom d) (t : Nat) (v : Trunk) : c.trunksFrom (d.putTrunk t v) := by
  unfold Chip.trunksFrom
  conv_lhs => rw [Chip.putTrunk, h]
  rfl

theorem Chip.printersFrom.put {c d : Chip} (h : c.printersFrom d) (p : Nat) (v : Printer) :
    c.printersFrom (d.putPrinter p v) := by
  unfold Chip.printersFrom
  conv_lhs => rw [Chip.putPrinter, h]
  rfl

theorem Chip.timersFrom.put {c d : Chip} (h : c.timersFrom d) (k : Nat) (v : Timer) : c.timersFrom (d.putTimer k v) := by
  unfold Chip.timersFrom
  conv_lhs => rw [Chip.putTimer, h]
  rfl

/-! ### RESTART (R30) -/

/-- A station entry as RESTART leaves it, by the NT and the clock of part `c` (R65). -/
def Station.restarted (c : Chip) (e : Station) : Station :=
  match e.kind with
  | .empty => Station.blank
  | .unit => e
  | .legacy =>
    if e.pinned then { e with
      age := 0, score := 0, quarantined := false, openJob := none, lastChange := c.stn.clock
      homeHearing := c.stn.clock
      presence := if e.trunk < c.ctl.unit.nt then .active else .unreachable }
    else Station.blank
  | .proxy => if e.pinned then { e with age := 0, score := 0, quarantined := false, openJob := none } else Station.blank

theorem Station.restarted_eq (c : Chip) (e : Station) : e.restarted c =
    if e.kind = .unit then e
    else if e.kind = .empty ∨ e.pinned = false then Station.blank
    else if e.kind = .proxy then { e with age := 0, score := 0, quarantined := false, openJob := none }
    else { e with
      age := 0, score := 0, quarantined := false, openJob := none, lastChange := c.stn.clock
      homeHearing := c.stn.clock
      presence := if e.trunk < c.ctl.unit.nt then .active else .unreachable } := by
  cases h : e.kind <;> cases hp : e.pinned <;> simp [Station.restarted, h, hp]

theorem station_restartStation {c d : Chip} (hc : d.stn.clock = c.stn.clock) (hu : d.ctl.unit = c.ctl.unit) (n k : Nat) :
    (restartStation d n).station k = if k = n then (d.station k).restarted c else d.station k := by
  unfold restartStation
  by_cases hk : k = n
  · subst hk
    cases h : (d.station k).kind <;> cases hp : (d.station k).pinned <;>
      simp [Station.restarted, h, hp, hc, hu, emptyStation, station_putStation]
  · cases h : (d.station n).kind <;> cases hp : (d.station n).pinned <;>
      simp [h, hp, emptyStation, station_putStation, hk]

theorem restartStation_from {c d : Chip} (n : Nat) (h : c.tableFrom d) : c.tableFrom (restartStation d n) := by
  cases hk : (d.station n).kind <;> cases hp : (d.station n).pinned <;> simp only [restartStation, hk, hp]
  case unit.false | unit.true => exact h
  all_goals exact h.put ..

theorem mem_stationNumbers {n : Nat} : n ∈ stationNumbers ↔ n ≠ 0 ∧ n < 255 := by
  simp only [stationNumbers, List.mem_map, List.mem_range]
  exact ⟨fun ⟨m, hm, he⟩ => by omega, fun ⟨h0, h1⟩ => ⟨n - 1, by omega, by omega⟩⟩

theorem stationNumbers_nodup : stationNumbers.Nodup :=
  List.nodup_range.map fun _ _ h => Nat.succ.inj h

/-- The station table after RESTART (R65). -/
theorem restartStations_spec (c : Chip) : c.tableFrom (stationNumbers.foldl restartStation c) ∧
    ∀ n, (stationNumbers.foldl restartStation c).station n =
      if n ≠ 0 ∧ n < 255 then (c.station n).restarted c else c.station n := by
  obtain ⟨h1, h2⟩ := foldl_table (get := Chip.station) (P := c.tableFrom) (l := stationNumbers) (c := c)
    (val := fun _ e => e.restarted c) (fun d n _ h => restartStation_from n h)
    (fun d n _ h k => station_restartStation (by rw [h]; rfl) (by rw [h]; rfl) n k) stationNumbers_nodup rfl
  exact ⟨h1, fun n => by rw [h2, if_congr mem_stationNumbers rfl rfl]⟩

/-- The trunks after RESTART (R126). -/
theorem restartTrunks_spec (c : Chip) : c.trunksFrom ((List.range 4).foldl restartTrunk c) ∧
    ∀ k, ((List.range 4).foldl restartTrunk c).trunk k =
      if k < 4 then (if k < c.ctl.unit.nt then Trunk.fresh else Trunk.absent) else c.trunk k := by
  obtain ⟨h1, h2⟩ := foldl_table (get := Chip.trunk) (step := restartTrunk) (P := c.trunksFrom) (l := List.range 4)
    (val := fun t _ => if t < c.ctl.unit.nt then Trunk.fresh else Trunk.absent)
    (fun d t _ h => h.put ..)
    (fun d t _ h k => by
      have hu : d.ctl.unit = c.ctl.unit := by rw [h]; rfl
      refine (trunk_putTrunk _ _ _ _).trans ?_
      rw [hu])
    List.nodup_range (c := c) rfl
  exact ⟨h1, fun k => by rw [h2, if_congr List.mem_range rfl rfl]⟩

/-- The printers after RESTART (R30). -/
theorem restartPrinters_spec (c : Chip) : c.printersFrom ((List.range 8).foldl restartPrinter c) ∧
    ∀ p, ((List.range 8).foldl restartPrinter c).printer p =
      if p < 8 then { Printer.blank with state := if c.printerRegion p then .ready else .disabled }
      else c.printer p := by
  obtain ⟨h1, h2⟩ := foldl_table (get := Chip.printer) (step := restartPrinter) (P := c.printersFrom)
    (l := List.range 8) (val := fun p _ => { Printer.blank with state := if c.printerRegion p then .ready else .disabled })
    (fun d p _ h => h.put ..)
    (fun d p _ h k => by
      have hr : d.printerRegion p = c.printerRegion p := by rw [h]; rfl
      refine (printer_putPrinter _ _ _ _).trans ?_
      rw [hr])
    List.nodup_range (c := c) rfl
  exact ⟨h1, fun k => by rw [h2, if_congr List.mem_range rfl rfl]⟩

/-- The timers after RESTART (R163). -/
theorem restartTimers_spec (c : Chip) : c.timersFrom ((List.range 4).foldl restartTimer c) ∧
    ∀ k, ((List.range 4).foldl restartTimer c).timer k =
      if k < 4 then { c.timer k with running := false, count := 0 } else c.timer k := by
  obtain ⟨h1, h2⟩ := foldl_table (get := Chip.timer) (step := restartTimer) (P := c.timersFrom) (l := List.range 4)
    (val := fun _ v => { v with running := false, count := 0 })
    (fun d k _ h => h.put ..)
    (fun d n _ h k => by
      refine (timer_putTimer _ _ _ _).trans ?_
      split
      · next hk => rw [hk]
      · rfl)
    List.nodup_range (c := c) rfl
  exact ⟨h1, fun k => by rw [h2, if_congr List.mem_range rfl rfl]⟩

/-- The frames of RESTART's parts, put together. -/
theorem restart_frame {c c1 c2 c3 c4 : Chip} (hs : c.tableFrom c1)
    (ht : (c1.withStn { c1.stn with exhausted := false }).trunksFrom c2)
    (hp : ((c2.withHlth { c2.hlth with decayCount := 0, decayDue := false }).withPrt PrintUnit.reset).printersFrom c3)
    (hm : c3.timersFrom c4) : c4 = { c with
      stn := { c.stn with table := c1.stn.table, exhausted := false }
      hlth := { trunks := c2.hlth.trunks, decayCount := 0, decayDue := false }
      prt := { jobs := [], spool := [], printers := c3.prt.printers, toggles := [] }
      rct := { c.rct with timers := c4.rct.timers } } := by
  unfold Chip.tableFrom at hs
  unfold Chip.trunksFrom at ht
  unfold Chip.printersFrom at hp
  unfold Chip.timersFrom at hm
  generalize c1.stn.table = table at hs
  generalize c4.rct.timers = timers at hm
  generalize c3.prt.printers = printers at hp
  generalize c2.hlth.trunks = trunks at ht
  subst hs ht hp hm
  simp only [Chip.withStn, Chip.withHlth, Chip.withPrt, Chip.withRct, PrintUnit.reset]

/-- RESTART's work unit by unit (R30). -/
theorem restartWork_spec (c : Chip) : (restartWork c).1 = .none ∧ (restartWork c).2.linesDriven ∧
    let d := (restartWork c).2
    d = { c with
      stn := { c.stn with table := d.stn.table, exhausted := false }
      hlth := { trunks := d.hlth.trunks, decayCount := 0, decayDue := false }
      prt := { jobs := [], spool := [], printers := d.prt.printers, toggles := [] }
      rct := { c.rct with timers := d.rct.timers, driven := d.rct.driven } } ∧
    (∀ k, d.trunk k =
      if k < 4 then (if k < c.ctl.unit.nt then Trunk.fresh else Trunk.absent) else c.trunk k) ∧
    (∀ p, d.printer p = if p < 8 then { Printer.blank with state := if c.printerRegion p then .ready else .disabled }
      else Printer.blank) ∧
    (∀ k, d.timer k = if k < 4 then { c.timer k with running := false, count := 0 } else c.timer k) ∧
    ∀ n, d.station n = if n ≠ 0 ∧ n < 255 then (c.station n).restarted c else c.station n := by
  obtain ⟨hs, hs'⟩ := restartStations_spec c
  unfold restartWork
  dsimp only
  generalize stationNumbers.foldl restartStation c = c1 at hs hs'
  obtain ⟨ht, ht'⟩ := restartTrunks_spec (c1.withStn { c1.stn with exhausted := false })
  generalize (List.range 4).foldl restartTrunk (c1.withStn { c1.stn with exhausted := false }) = c2 at ht ht'
  obtain ⟨hp, hp'⟩ := restartPrinters_spec
    ((c2.withHlth { c2.hlth with decayCount := 0, decayDue := false }).withPrt PrintUnit.reset)
  generalize (List.range 8).foldl restartPrinter
    ((c2.withHlth { c2.hlth with decayCount := 0, decayDue := false }).withPrt PrintUnit.reset) = c3 at hp hp'
  obtain ⟨hm, hm'⟩ := restartTimers_spec c3
  generalize (List.range 4).foldl restartTimer c3 = c4 at hm hm'
  have hd : redriveLines c4 = c4.withRct { c4.rct with driven := (redriveLines c4).rct.driven } := rfl
  have hlines := redriveLines_driven c4
  generalize (redriveLines c4).rct.driven = driven at hd
  rw [hd] at hlines ⊢
  have hf := restart_frame hs ht hp hm
  have hu1 : c1.ctl = c.ctl := by rw [hs]; rfl
  have hu2 : c2.ctl = c.ctl := (by rw [ht]; rfl : c2.ctl = c1.ctl).trans hu1
  have h1 : c1.hlth = c.hlth := by rw [hs]; rfl
  have h3 : c3.rct = c.rct :=
    calc c3.rct = c2.rct := by rw [hp]; rfl
      _ = c1.rct := by rw [ht]; rfl
      _ = c.rct := by rw [hs]; rfl
  refine ⟨rfl, hlines, ?_, fun k => ?_, fun p => ?_, fun k => ?_, fun n => ?_⟩
  · generalize c1.stn.table = table at hf
    generalize c4.rct.timers = timers at hf
    generalize c3.prt.printers = printers at hf
    generalize c2.hlth.trunks = trunks at hf
    subst hf
    rfl
  · calc c4.trunk k = c2.trunk k := by rw [hf]; rfl
      _ = _ := ht' k
      _ = if k < 4 then (if k < c1.ctl.unit.nt then Trunk.fresh else Trunk.absent) else c1.trunk k := rfl
      _ = _ := by rw [hu1, Chip.trunk_of_hlth h1]
  · calc c4.printer p = c3.printer p := by rw [hf]; rfl
      _ = _ := hp' p
      _ = if p < 8 then { Printer.blank with state := if c2.printerRegion p then .ready else .disabled }
          else (Chip.withPrt PrintUnit.reset c2).printer p := rfl
      _ = _ := by
        have hr : c2.printerRegion p = c.printerRegion p := by simp only [Chip.printerRegion, Chip.printerRec, hu2]
        rw [hr]
        rfl
  · calc c4.timer k = _ := hm' k
      _ = _ := by rw [Chip.timer_of_rct h3]
  · calc c4.station n = c1.station n := by rw [hf]; rfl
      _ = _ := hs' n

/-- The reply after RESTART's work. -/
theorem restart_taken (tag : Octet) {c e : Chip} {m : Nat} (he : e = reply tag m .none 0 (restartWork c).2) :
    c.did e tag .none 0 [] ∧ e.linesDriven ∧
    e = { c.over e with
      stn := { c.stn with table := e.stn.table, exhausted := false }
      hlth := { trunks := e.hlth.trunks, decayCount := 0, decayDue := false }
      prt := { jobs := [], spool := [], printers := e.prt.printers, toggles := [] }
      rct := { c.rct with timers := e.rct.timers, driven := e.rct.driven } } ∧
    (∀ k, e.trunk k = (restartWork c).2.trunk k) ∧ (∀ p, e.printer p = (restartWork c).2.printer p) ∧
    (∀ k, e.timer k = (restartWork c).2.timer k) ∧ ∀ n, e.station n = (restartWork c).2.station n := by
  obtain ⟨-, hl, hd, -⟩ := restartWork_spec c
  have ho := replyAfter_over tag ((restartWork c).2.waitingSince m) .none 0 (restartWork c).2
  generalize (restartWork c).2 = d at he hl hd ho
  rw [← reply, ← he] at ho
  have hdid : c.did e tag .none 0 [] := by
    rw [he]
    exact reply_did_of (by rw [hd]) (by rw [hd]) (by rw [hd]; rfl) _ _ _ _
  have hstn : e.stn = d.stn := by rw [ho]; rfl
  have hhl : e.hlth = d.hlth := by rw [ho]; rfl
  have hprt : e.prt = d.prt := by rw [ho]; rfl
  have hrct : e.rct = d.rct := by rw [ho]; rfl
  refine ⟨hdid, linesDriven_congr hl (by rw [hrct]) (by rw [ho]; rfl) (by rw [hhl]) (by rw [hprt])
    fun l => by rw [Chip.line_of_rct hrct]; exact ⟨rfl, rfl⟩, ?_, Chip.trunk_of_hlth hhl, Chip.printer_of_prt hprt,
    Chip.timer_of_rct hrct, Chip.station_of_stn hstn⟩
  rw [hstn, hhl, hprt, hrct]
  calc e = d.over e := ho
    _ = _ := by
      conv_lhs => rw [hd]
      rfl

/-- Settles O35: RESTART's work unit by unit, then its reply. -/
theorem restartClearsLearnedState : Obligations.RestartClearsLearnedState := by
  unfold Obligations.RestartClearsLearnedState
  intro tag s hs hm c
  obtain ⟨t, ht, hw, hc⟩ := command_performed hs (k := .restart) (decide_eq_true hm) tag
  have he : t.chip = reply tag c.path.serial .none 0 (restartWork c).2 := hc
  obtain ⟨hdid, hl, hf, htr, hpr, hti, hst⟩ := restart_taken tag he
  obtain ⟨-, -, -, htr', hpr', hti', hst'⟩ := restartWork_spec c
  have hu : c.ctl.unit = s.chip.ctl.unit := strikeAt_ctl_unit _ _
  refine ⟨t, ht, hw, hdid, hl, hf, fun k => ?_, fun p => ?_, fun k => ?_, fun n => ?_⟩
  · rw [htr, htr', hu, Chip.trunk_of_hlth (d := c) (c := s.chip) (strikeAt_hlth _ _)]
    by_cases hk : k < 4 <;> by_cases hn : k < s.chip.ctl.unit.nt <;> simp [hk, hn, Trunk.fresh]
  · have hr : c.printerRegion p = (decide (p < s.chip.ctl.unit.np) && (s.chip.printerRec p).enabled) := by
      have hp : c.printerRec p = s.chip.printerRec p :=
        congrArg (fun l => tget PrinterRec.builtIn l p) (strikeAt_ctl_printers _ _)
      rw [Chip.printerRegion, hu, hp]
    rw [hpr, hpr', hr]
    by_cases hp : p < 8 <;> by_cases hn : p < s.chip.ctl.unit.np <;> cases (s.chip.printerRec p).enabled <;>
      simp [hp, hn, Printer.blank]
  · rw [hti, hti', Chip.timer_of_rct (d := c) (c := s.chip) (strikeAt_rct _ _)]
  · intro e
    have hclk : c.stn.clock = s.chip.stn.clock := congrArg StationUnit.clock (strikeAt_stn _ _)
    have hc' : c.station n = e := Chip.station_of_stn (strikeAt_stn _ _) n
    rw [hst, hst', hc']
    by_cases hn : n ≠ 0 ∧ n < 255
    · rw [if_pos hn, Station.restarted_eq, hu, hclk]
      have h0 : ¬ (n = 0 ∨ 255 ≤ n) := by omega
      simp only [← or_assoc, h0, false_or]
    · have h0 : n = 0 ∨ 255 ≤ n := by omega
      rw [if_neg hn, if_pos (by tauto)]

end Sys2Proof.Machine

/-! PROOF. STOP (R29, R45): nothing due from the last tick, the frames in HELD_WAITING released. -/

namespace Sys2Proof.Machine

/-! ### Nothing left due by a tick (assumption 7) -/

theorem nothingDue_countdown {c : Chip} (h : c.nothingDue) (st : TrunkState) (t : Nat) :
    c.countdownDue st t = false := by
  obtain ⟨-, -, ht, -⟩ := h
  simp [Chip.countdownDue, (ht t).1]

/-- With nothing due there is nothing to take. -/
theorem takeDue_of_nothingDue (g : Give) {c : Chip} (h : c.nothingDue) : takeDue g c = c := by
  have hold : ∀ t, runHold g c t = c := fun t => if_neg (by simp [nothingDue_countdown h])
  have trial : ∀ t, runTrial g c t = c := fun t => if_neg (by simp [nothingDue_countdown h])
  obtain ⟨hs, hd, ht, hj, hk⟩ := h
  have second : runSecond g c = c := if_neg (by simp [hs])
  have decay : runDecay g c = c := if_neg (by simp [hd])
  have clear : ∀ t, runClear c t = c := fun t => if_neg (ht t).2
  have idle : ∀ j, runIdle g c j = c := fun j => if_neg (hj j).1
  have grace : ∀ j, runGrace g c j = c := fun j => if_neg (hj j).2
  have timer : ∀ k, runTimer g c k = c := fun k => if_neg (by simp [hk])
  simp only [takeDue, second, decay, List.foldl_fixed' hold, List.foldl_fixed' trial, List.foldl_fixed' clear,
    List.foldl_fixed' idle, List.foldl_fixed' grace, List.foldl_fixed' timer]

theorem nothingDue_struckAt {s : State} (h : s.chip.nothingDue) (o : Nat) : (s.struckAt o).nothingDue := by
  obtain ⟨hs, hd, ht, hj, hk⟩ := h
  have e1 : (s.struckAt o).hlth = s.chip.hlth := strikeAt_hlth _ _
  have e2 : (s.struckAt o).prt = s.chip.prt := strikeAt_prt _ _
  have e3 : (s.struckAt o).rct = s.chip.rct := strikeAt_rct _ _
  have e4 : (s.struckAt o).stn = s.chip.stn := strikeAt_stn _ _
  refine ⟨by rw [e4, hs], by rw [e1, hd], fun t => ?_, fun j => ?_, fun k => ?_⟩
  · rw [Chip.trunk_of_hlth e1]
    exact ht t
  · rw [Chip.job_of_prt e2]
    exact hj j
  · rw [Chip.timerDue, Chip.timer_of_rct e3]
    exact hk k

/-! ### The works a withdrawal leaves (R11, R47) -/

/-- The works of unit `o` but for the entries a withdrawal of what `f` picks takes away. -/
def Chip.keptBut (f : Purpose → Bool) (c : Chip) (o : Owner) : List Work :=
  (c.path.queue.filter fun x => decide (x.owner = o) && !f x.purpose).map (·.work) ++
    ((c.waiting o).filter fun x => !(decide (o = .frame) && f x.purpose)).map (·.work)

theorem keptBut_none (c : Chip) (o : Owner) : c.keptBut (fun _ => false) o = c.worksOf o := by
  simp [Chip.keptBut, Chip.worksOf]

theorem keptBut_of_path {c d : Chip} (h : d.path = c.path) (f : Purpose → Bool) (o : Owner) :
    d.keptBut f o = c.keptBut f o := by
  cases o <;> simp only [Chip.keptBut, Chip.waiting, h]

/-- An offered frame entry that the withdrawal leaves is the last of its unit's works. -/
theorem keptBut_offer {f : Purpose → Bool} {e : Entry} {c : Chip} (ho : e.owner = .frame) (hf : f e.purpose = false)
    (ht : takenEntry c e = e) (o : Owner) :
    (offer e c).keptBut f o = c.keptBut f o ++ if o = .frame then [e.work] else [] := by
  rcases offer_cases e c with ⟨-, hw, -, hj⟩ | hj
  · rw [ho] at hw
    have hk : (joinQueue e c).waiting o = c.waiting o := by cases o <;> rfl
    by_cases h : o = .frame
    · subst h
      simp [hj, Chip.keptBut, joinQueue_queue, ht, hk, hw, ho, hf]
    · simp [hj, Chip.keptBut, joinQueue_queue, ht, hk, ho, h, Ne.symm h]
  · rw [hj, ho]
    by_cases h : o = .frame
    · subst h
      simp [Chip.keptBut, hf]
    · have hk : (c.putWaiting .frame (c.waiting .frame ++ [e])).waiting o = c.waiting o := by
        cases o
        case frame => exact absurd rfl h
        all_goals rfl
      simp [Chip.keptBut, hk, h]

theorem keptBut_withdrawFrame (f g : Purpose → Bool) (c : Chip) (o : Owner) :
    (withdrawFrame f c).keptBut g o = c.keptBut (fun p => f p || g p) o := by
  have hq : (withdrawFrame f c).path.queue = c.path.queue.filter fun e => !f e.purpose := rfl
  have hw : (withdrawFrame f c).waiting o = (c.waiting o).filter fun x => !(decide (o = .frame) && f x.purpose) := by
    cases o <;> simp [withdrawFrame, Chip.waiting, Chip.withPath]
  have hor : ∀ b x y : Bool, (b && !(x || y)) = ((b && !y) && !x) := by decide
  have hand : ∀ b x y : Bool, (!(b && (x || y))) = (!(b && y) && !(b && x)) := by decide
  simp only [Chip.keptBut, hq, hw, List.filter_filter, hor, hand]

/-- A formed frame deposit that the withdrawal leaves is the last of its unit's works. -/
theorem keptBut_formDeposit {f : Purpose → Bool} {p : Purpose} (h : f p = false) (a : Nat) (ws : List Word) (c : Chip)
    (o : Owner) : (formDeposit .frame p a ws c).keptBut f o =
      c.keptBut f o ++ if o = .frame then [.deposit a (unstruck ws)] else [] := by
  have hs : (c.withPath { c.path with serial := c.path.serial + 1 }).keptBut f o = c.keptBut f o := by
    cases o <;> rfl
  rw [formDeposit, formEntry, keptBut_offer rfl h (takenEntry_eq (by simp)), hs]
  rfl

/-! ### A frame released by STOP (R29, R45) -/

/-- What STOP does to one frame in HELD_WAITING. -/
def releaseStopped (c : Chip) (x : Engine × Slot) : Chip :=
  releaseFrame x.1 x.2 { code := 15 } (withdrawFrame (Purpose.ofSlot x.1 x.2.id) c)

/-- The two deposits that release a stopped frame. -/
def stoppedWorks (v : Slot) : List Work :=
  [.deposit (v.word0 + 4) (unstruck [octetPair 15 0, 0, 0, 0]),
    .deposit v.word0 (unstruck [wordNat (v.saved.toNat % 16384 + 16384)])]

/-- A frame with its release under way. -/
def Slot.released (v : Slot) : Slot := { v with phase := .releasing, fetching := false }

/-- Nothing but the queue and the frame unit sets `d` apart from `c`. -/
def Chip.framesFrom (c d : Chip) : Prop :=
  d = { c with path := d.path, frm := d.frm } ∧ d.path.bus = c.path.bus ∧ d.path.asking = c.path.asking ∧
    ∀ e, d.ctx e = c.ctx e

theorem Chip.framesFrom.trans {c d f : Chip} (h : c.framesFrom d) (k : d.framesFrom f) : c.framesFrom f := by
  obtain ⟨hd, hb, ha, hc⟩ := h
  obtain ⟨kd, kb, ka, kc⟩ := k
  refine ⟨?_, kb.trans hb, ka.trans ha, fun e => (kc e).trans (hc e)⟩
  conv_lhs => rw [kd, hd]

theorem formDeposit_framesFrom (o : Owner) (p : Purpose) (a : Nat) (ws : List Word) (c : Chip) :
    c.framesFrom (formDeposit o p a ws c) := by
  obtain ⟨-, -, hb, ha⟩ := formDeposit_grew o p a ws c
  have hc : ∀ e, (formDeposit o p a ws c).ctx e = c.ctx e := Chip.ctx_of_frm (formDeposit_frm ..)
  refine ⟨Chip.eq_of_units ?_ ?_ ?_ rfl ?_ rfl ?_ ?_ ?_ ?_ ?_, hb, ha, hc⟩ <;> simp

theorem putHeld_framesFrom (e : Engine) (l : List Slot) (c : Chip) : c.framesFrom (c.putHeld e l) := by
  refine ⟨?_, by simp, by simp, fun r => by simp⟩
  cases e <;> rfl

theorem releaseStopped_framesFrom (c : Chip) (x : Engine × Slot) : c.framesFrom (releaseStopped c x) := by
  have h1 : c.framesFrom (withdrawFrame (Purpose.ofSlot x.1 x.2.id) c) := ⟨rfl, rfl, rfl, fun e => by cases e <;> rfl⟩
  exact ((h1.trans (putHeld_framesFrom ..)).trans (formDeposit_framesFrom ..)).trans (formDeposit_framesFrom ..)

theorem releaseStopped_held (c : Chip) (x : Engine × Slot) (e : Engine) :
    (releaseStopped c x).held e = if e = x.1 then putSlot (c.held e) x.2.released else c.held e := by
  have h := putHeld_held x.1 (putSlot ((withdrawFrame (Purpose.ofSlot x.1 x.2.id) c).held x.1) x.2.released)
    (withdrawFrame (Purpose.ofSlot x.1 x.2.id) c) e
  rw [releaseStopped, releaseFrame, Chip.held_of_frm (formDeposit_frm ..), Chip.held_of_frm (formDeposit_frm ..)]
  refine h.trans ?_
  split
  · next he =>
    subst he
    rfl
  · rfl

/-- The works after one frame's release: its own entries gone, its two deposits last. -/
theorem releaseStopped_keptBut {f : Purpose → Bool} {x : Engine × Slot}
    (hf : ∀ p, Purpose.ofSlot x.1 x.2.id p = true → f p = false) (c : Chip) (o : Owner) :
    (releaseStopped c x).keptBut f o =
      c.keptBut (fun p => Purpose.ofSlot x.1 x.2.id p || f p) o ++ if o = .frame then stoppedWorks x.2 else [] := by
  have hp : ∀ d : Chip, ∀ e l, (d.putHeld e l).keptBut f o = d.keptBut f o := fun d e l =>
    keptBut_of_path (putHeld_path ..) f o
  rw [releaseStopped, releaseFrame, keptBut_formDeposit (hf _ (by simp [Purpose.ofSlot])),
    keptBut_formDeposit (hf _ (by simp [Purpose.ofSlot])), hp, keptBut_withdrawFrame, List.append_assoc]
  cases o <;> rfl

/-! ### All of them, the coax list's and then the pair list's -/

/-- An entry of one of the frames of `l`. -/
def ofFrames (l : List (Engine × Slot)) (p : Purpose) : Bool := l.any fun x => Purpose.ofSlot x.1 x.2.id p

/-- An entry belongs to one slot of one engine at most. -/
theorem ofSlot_unique {e r : Engine} {i j : Nat} {p : Purpose} (h : Purpose.ofSlot e i p = true)
    (k : Purpose.ofSlot r j p = true) : (e, i) = (r, j) := by
  cases p <;> simp_all [Purpose.ofSlot]

theorem releaseAll_framesFrom (l : List (Engine × Slot)) (c : Chip) : c.framesFrom (l.foldl releaseStopped c) :=
  List.foldlRecOn l _ ⟨rfl, rfl, rfl, fun _ => rfl⟩ fun d h x _ => h.trans (releaseStopped_framesFrom d x)

/-- The works after the frames of `l` are released: their entries gone, their deposits last, in order. -/
theorem releaseAll_keptBut {l : List (Engine × Slot)} (hl : (l.map fun x => (x.1, x.2.id)).Nodup) {f : Purpose → Bool}
    (hf : ∀ p, ofFrames l p = true → f p = false) (c : Chip) (o : Owner) :
    (l.foldl releaseStopped c).keptBut f o =
      c.keptBut (fun p => ofFrames l p || f p) o ++ if o = .frame then l.flatMap fun x => stoppedWorks x.2 else [] := by
  induction l generalizing c f with
  | nil => simp [ofFrames]
  | cons x l ih =>
    obtain ⟨hx, hl⟩ := List.nodup_cons.mp hl
    have hrest : ∀ p, Purpose.ofSlot x.1 x.2.id p = true → ofFrames l p = false := fun p hp => by
      rw [ofFrames, List.any_eq_false]
      intro y hy hq
      exact hx (List.mem_map.mpr ⟨y, hy, ofSlot_unique hq hp⟩)
    have hcons : ∀ p, ofFrames (x :: l) p = (Purpose.ofSlot x.1 x.2.id p || ofFrames l p) := fun p => rfl
    rw [List.foldl_cons, ih hl fun p hp => hf p (by simp [hcons, hp]), releaseStopped_keptBut fun p hp => by
      simp [hrest p hp, hf p (by simp [hcons, hp])]]
    simp only [hcons, Bool.or_assoc, List.append_assoc, List.flatMap_cons]
    split <;> simp

/-- The held lists after the frames of `l` are released: the same names, and every frame of `l` RELEASING. -/
theorem releaseAll_held (l : List (Engine × Slot)) (c : Chip) (e : Engine) :
    ((l.foldl releaseStopped c).held e).map (·.id) = (c.held e).map (·.id) ∧
    ∀ v ∈ (l.foldl releaseStopped c).held e, v.phase = .releasing ∨
      v ∈ c.held e ∧ ∀ x ∈ l, (x.1, x.2.id) ≠ (e, v.id) := by
  induction l generalizing c with
  | nil => exact ⟨rfl, fun v hv => .inr ⟨hv, by simp⟩⟩
  | cons x l ih =>
    obtain ⟨hi, hp⟩ := ih (releaseStopped c x)
    rw [releaseStopped_held] at hi hp
    refine ⟨hi.trans (by split <;> simp), fun v hv => ?_⟩
    rcases hp v hv with h | ⟨hm, hne⟩
    · exact .inl h
    · by_cases he : e = x.1
      · rw [if_pos he, putSlot, List.mem_map] at hm
        obtain ⟨w, hw, rfl⟩ := hm
        by_cases hid : w.id = x.2.released.id
        · rw [if_pos hid]
          exact .inl rfl
        · rw [if_neg hid] at hne ⊢
          exact .inr ⟨hw, List.forall_mem_cons.mpr ⟨fun h => hid (congrArg Prod.snd h).symm, hne⟩⟩
      · rw [if_neg he] at hm
        exact .inr ⟨hm, List.forall_mem_cons.mpr ⟨fun h => he (congrArg Prod.fst h).symm, hne⟩⟩

/-- The frames of a held list in HELD_WAITING. -/
def Chip.waits (c : Chip) (e : Engine) : List Slot := (c.held e).filter fun v => decide (v.phase = .heldWaiting)

/-- The frames STOP releases, in its order. -/
def Chip.stopping (c : Chip) : List (Engine × Slot) :=
  (c.waits .coax).map (Prod.mk .coax) ++ (c.waits .pair).map (Prod.mk .pair)

theorem foldl_stopFrame (e : Engine) (l : List Slot) (c : Chip) : l.foldl (stopFrame e) c =
    ((l.filter fun v => decide (v.phase = .heldWaiting)).map (Prod.mk e)).foldl releaseStopped c := by
  rw [List.foldl_map, List.foldl_filter]
  congr 1
  funext d v
  simp only [stopFrame, decide_eq_true_eq]
  rfl

theorem releaseAll_held_of_ne {e r : Engine} (h : r ≠ e) (l : List Slot) (c : Chip) :
    ((l.map (Prod.mk e)).foldl releaseStopped c).held r = c.held r := by
  rw [List.foldl_map]
  refine List.foldlRecOn (motive := fun d : Chip => d.held r = c.held r) l _ rfl fun d hd v _ => ?_
  rw [releaseStopped_held, if_neg h, hd]

theorem stopFrames_eq (c : Chip) : stopFrames c = c.stopping.foldl releaseStopped c := by
  rw [stopFrames, foldl_stopFrame, foldl_stopFrame, releaseAll_held_of_ne (by decide), Chip.stopping, List.foldl_append]
  rfl

theorem ids_of_filter {l : List Slot} {f : Slot → Bool} (h : (l.map (·.id)).Nodup) : ((l.filter f).map (·.id)).Nodup :=
  h.sublist (List.filter_sublist.map _)

theorem stopping_nodup {c : Chip} (h : c.namesOk) : (c.stopping.map fun x => (x.1, x.2.id)).Nodup := by
  have hn : ∀ e : Engine, (((c.waits e).map (Prod.mk e)).map fun x => (x.1, x.2.id)).Nodup := fun e => by
    have hw : ((c.waits e).map (·.id)).Nodup := ids_of_filter (h e).1
    have hm := hw.map (f := Prod.mk e) fun i j hij => congrArg Prod.snd hij
    rw [List.map_map] at hm ⊢
    exact hm
  rw [Chip.stopping, List.map_append, List.nodup_append]
  refine ⟨hn _, hn _, fun x hx y hy hxy => ?_⟩
  simp only [List.map_map, List.mem_map, Function.comp] at hx hy
  obtain ⟨v, -, rfl⟩ := hx
  obtain ⟨w, -, rfl⟩ := hy
  exact Engine.noConfusion (congrArg Prod.fst hxy)

/-- STOP's release of the held frames (R29, R45). -/
theorem stopFrames_spec {c : Chip} (h : c.namesOk) : c.framesFrom (stopFrames c) ∧
    (∀ e, ((stopFrames c).held e).map (·.id) = (c.held e).map (·.id)) ∧
    (∀ e, ∀ v ∈ (stopFrames c).held e, v.phase = .releasing) ∧
    ∀ o, (stopFrames c).worksOf o = c.keptBut (ofFrames c.stopping) o ++
      if o = .frame then (c.waits .coax ++ c.waits .pair).flatMap stoppedWorks else [] := by
  rw [stopFrames_eq]
  refine ⟨releaseAll_framesFrom _ c, fun e => (releaseAll_held _ c e).1, fun e v hv => ?_, fun o => ?_⟩
  · rcases (releaseAll_held _ c e).2 v hv with hp | ⟨hm, hne⟩
    · exact hp
    · cases hp : v.phase
      · have hw : v ∈ c.waits e := List.mem_filter.mpr ⟨hm, by simp [hp]⟩
        refine absurd rfl (hne (e, v) ?_)
        cases e
        · exact List.mem_append_left _ (List.mem_map_of_mem hw)
        · exact List.mem_append_right _ (List.mem_map_of_mem hw)
      · rfl
  · rw [← keptBut_none, releaseAll_keptBut (stopping_nodup h) fun _ _ => rfl]
    simp only [Bool.or_false, Chip.stopping, List.flatMap_append, List.flatMap_map]

/-! ### STOP (R29) -/

/-- With no printer record awaiting, only the awaiting health record comes into force. -/
theorem applyAwaitingAll_health (g : Give) {c : Chip} (h : ∀ p, c.awaitingPrinter p = none) :
    applyAwaitingAll g c = c.withCtl { c.ctl with
      health := c.ctl.awaitingHealth.getD c.ctl.health, awaitingHealth := none } := by
  cases ha : c.ctl.awaitingHealth with
  | none =>
    have hc : c.withCtl { c.ctl with awaitingHealth := c.ctl.awaitingHealth } = c := rfl
    rw [ha] at hc
    simp only [applyAwaitingAll, ha]
    rw [List.foldl_fixed' fun p => by rw [h p]]
    exact hc.symm
  | some r =>
    simp only [applyAwaitingAll, ha]
    refine List.foldl_fixed' (fun p => ?_) _
    have hp : (c.withCtl { c.ctl with health := r, awaitingHealth := none }).awaitingPrinter p = none := h p
    rw [hp]

/-- The part after STOP's work: the frames released, the awaiting health record in force, the lines at their PASS
levels. -/
theorem stopWork_spec (g : Give) {c : Chip} (hn : c.namesOk) (hp : ∀ p, c.awaitingPrinter p = none) :
    (stopWork g c).1 = .none ∧
    let d := (stopWork g c).2
    d = { c with
      path := d.path
      ctl := { c.ctl with
        mode := .pass
        health := c.ctl.awaitingHealth.getD c.ctl.health
        awaitingHealth := none }
      frm := d.frm
      rct := { c.rct with driven := d.rct.driven } } ∧
    d.linesDriven ∧ d.path.bus = c.path.bus ∧ d.path.asking = c.path.asking ∧ (∀ e, d.ctx e = c.ctx e) ∧
    (∀ e, (d.held e).map (·.id) = (c.held e).map (·.id)) ∧ (∀ e, ∀ v ∈ d.held e, v.phase = .releasing) ∧
    ∀ o, d.worksOf o = c.keptBut (ofFrames c.stopping) o ++
      if o = .frame then (c.waits .coax ++ c.waits .pair).flatMap stoppedWorks else [] := by
  obtain ⟨⟨hd, hb, ha, hc⟩, hi, hr, hw⟩ := stopFrames_spec (c := c.setMode .pass) hn
  have happ := applyAwaitingAll_health g (c := stopFrames (c.setMode .pass)) fun p => by
    rw [hd]
    exact hp p
  refine ⟨rfl, ?_⟩
  have hl := redriveLines_driven (applyAwaitingAll g (stopFrames (c.setMode .pass)))
  dsimp only [stopWork]
  rw [happ] at hl ⊢
  generalize stopFrames (c.setMode .pass) = f at hd hb ha hc hi hr hw hl
  generalize hdr : redriveLines _ = d at hl ⊢
  have hf : d.path = f.path ∧ d.frm = f.frm := by subst hdr; exact ⟨rfl, rfl⟩
  obtain ⟨hpath, hfrm⟩ := hf
  refine ⟨?_, hl, by rw [hpath]; exact hb, by rw [hpath]; exact ha, fun e => by rw [Chip.ctx_of_frm hfrm]; exact hc e,
    fun e => by rw [Chip.held_of_frm hfrm]; exact hi e, fun e => by rw [Chip.held_of_frm hfrm]; exact hr e, fun o => ?_⟩
  · rw [hpath, hfrm]
    obtain ⟨path, frm, rfl⟩ : ∃ path frm, f = { c.setMode .pass with path, frm } := ⟨_, _, hd⟩
    subst hdr
    rfl
  · rw [← keptBut_none, keptBut_of_path hpath, keptBut_none]
    exact hw o

/-- STOP taken: its work, and the reply after it. -/
theorem stop_taken (g : Give) (tag : Octet) {c e : Chip} {m : Nat} (hn : c.namesOk)
    (hp : ∀ p, c.awaitingPrinter p = none) (he : e = reply tag m .none 0 (stopWork g c).2) :
    e.replied tag .none 0 ∧
    e = { c with
      path := e.path
      ctl := { c.ctl with
        mode := .pass
        command := e.ctl.command
        health := c.ctl.awaitingHealth.getD c.ctl.health
        awaitingHealth := none }
      frm := e.frm
      rct := { c.rct with driven := e.rct.driven } } ∧
    e.linesDriven ∧ e.path.bus = c.path.bus ∧ e.path.asking = c.path.asking ∧ (∀ r, e.ctx r = c.ctx r) ∧
    (∀ r, (e.held r).map (·.id) = (c.held r).map (·.id)) ∧ (∀ r, ∀ v ∈ e.held r, v.phase = .releasing) ∧
    ∀ o, e.worksOf o = c.keptBut (ofFrames c.stopping) o ++
      match o with
      | .frame => (c.waits .coax ++ c.waits .pair).flatMap stoppedWorks
      | .control => [c.replyWork tag .none 0]
      | _ => [] := by
  obtain ⟨-, hd, hl, hb, ha, hctx, hid, hph, hworks⟩ := stopWork_spec g hn hp
  generalize (stopWork g c).2 = d at he hd hl hb ha hctx hid hph hworks
  obtain ⟨hrep, ⟨-, -, hb', ha'⟩, ⟨hlog, hev⟩, hco, hfr, hpr⟩ := reply_did tag m .none 0 d
  have ho := replyAfter_over tag (d.waitingSince m) .none 0 d
  rw [← reply] at ho
  rw [← he] at hrep hb' ha' hlog hev hco hfr hpr ho
  have hevt : e.evt = c.evt := Eq.trans hlog (by rw [hd]; rfl)
  have hfrm : e.frm = d.frm := by rw [ho]; rfl
  have hrct : e.rct = d.rct := by rw [ho]; rfl
  have hbase : c.base = d.base := by rw [hd]; rfl
  refine ⟨hrep, ?_, linesDriven_congr hl (by rw [hrct]) (by rw [ho]; rfl) (by rw [ho]; rfl) (by rw [ho]; rfl)
    fun l => by rw [Chip.line_of_rct hrct]; exact ⟨rfl, rfl⟩, hb'.trans hb, ha'.trans ha,
    fun r => (Chip.ctx_of_frm hfrm r).trans (hctx r), fun r => by rw [Chip.held_of_frm hfrm, hid],
    fun r => by rw [Chip.held_of_frm hfrm]; exact hph r, fun o => ?_⟩
  · rw [hfrm, hrct]
    calc e = d.over e := ho
      _ = _ := by
        rw [← hevt]
        conv_lhs => rw [hd]
        rfl
  · cases o
    case frame => rw [hfr, List.append_nil, hworks, if_pos rfl]
    case control => rw [hco, hworks, if_neg (by decide), List.append_nil, replyWork_congr hbase]
    case print => rw [hpr, hworks, if_neg (by decide), List.append_nil]
    case event => rw [hev, hworks, if_neg (by decide), List.append_nil]; exact List.append_nil _

/-- Settles O34: nothing is due, so STOP releases the frames, and its reply follows. -/
theorem stopReleasesHeldFrames : Obligations.StopReleasesHeldFrames := by
  unfold Obligations.StopReleasesHeldFrames
  intro tag s hs hm hdue hn hp c waits out kept
  obtain ⟨t, ht, hw, hc⟩ := command_performed hs (k := .stop) (decide_eq_true hm) tag
  have he : t.chip = reply tag c.path.serial .none 0 (stopWork top c).2 := by
    rw [hc]
    change answered tag (stopWork top) (takeDue top c) = _
    rw [takeDue_of_nothingDue top (nothingDue_struckAt hdue 0)]
    rfl
  have hfrm : c.frm = s.chip.frm := strikeAt_frm _ _
  have hrct : c.rct = s.chip.rct := strikeAt_rct _ _
  have hpath : c.path = _ := strikeAt_path _ _
  have hheld : ∀ e, c.held e = s.chip.held e := Chip.held_of_frm hfrm
  have hwaits : ∀ e, c.waits e = waits e := fun e => by rw [Chip.waits, hheld]
  have hout : ∀ x : Entry, ofFrames c.stopping x.purpose = out x := fun x => by
    simp only [ofFrames, Chip.stopping, List.any_append, List.any_map, hwaits]
    rfl
  have hkept : ∀ o, c.keptBut (ofFrames c.stopping) o = kept o := fun o => by simp only [Chip.keptBut, hout, kept]
  have hn' : c.namesOk := fun e => by
    rw [hheld, hpath]
    exact hn e
  have hp' : ∀ p, c.awaitingPrinter p = none := fun p =>
    (congrArg (tget none · p) (strikeAt_ctl_awaitingPrinters _ _)).trans (hp p)
  obtain ⟨h1, h2, h3, h4, h5, h6, h7, h8, h9⟩ := stop_taken top tag hn' hp' he
  refine ⟨t, ht, hw, h1, ?_, h3, by rw [h4, hpath], by rw [h5, hpath], fun e => by rw [h6, Chip.ctx_of_frm hfrm],
    fun e => by rw [h7, hheld], h8, ?_, ?_, ?_, ?_⟩
  · rw [← hrct]
    have hah : c.ctl.awaitingHealth = s.chip.ctl.awaitingHealth := strikeAt_ctl_awaitingHealth _ _
    have hhe : c.ctl.health = s.chip.ctl.health := strikeAt_ctl_health _ _
    rw [hah, hhe] at h2
    exact h2
  · rw [h9, hkept, ← hwaits, ← hwaits]
    rfl
  · rw [h9, hkept, replyWork_congr (struckAt_base s 0)]
  · rw [h9, hkept, List.append_nil]
  · rw [h9, hkept, List.append_nil]

end Sys2Proof.Machine

/-! PROOF. Ticks (R25, R49, R102, R115, R140, R149, R164, R169). -/

namespace Sys2Proof.Machine

/-! ### A part with no reaction in force -/

/-- With no reaction in force a trigger fires nothing (R172). -/
theorem top_of_noReactions {c : Chip} (h : c.noReactions) (v : Trigger) : top v c = c := by
  have hn : c.ctl.unit.nr = 0 := h
  change (if c.ctl.mode = .run then (List.range 16).foldl (fireReaction (giveTrigger 3) v) c else c) = c
  have hf : ∀ n, fireReaction (giveTrigger 3) v c n = c := fun n => if_neg (by simp [hn])
  rw [List.foldl_fixed' hf, ite_self]

/-! ### Lines sampled (R156, R169) -/

theorem Chip.sampledFrom.noReactions {c d : Chip} (h : c.sampledFrom d) (hn : c.noReactions) : d.noReactions := by
  obtain ⟨hd, -⟩ := h
  rw [hd]
  exact hn

theorem Chip.sampledFrom.printer {c d : Chip} (h : c.sampledFrom d) (p : Nat) : d.printer p = c.printer p := by
  obtain ⟨hd, -⟩ := h
  rw [hd]
  rfl

/-- A line compared with its pin where neither a reaction nor a printer takes its edge: nothing, or its sampled level
alone. -/
theorem sampleLine_cases {c : Chip} {l : Nat} (hn : c.noReactions) (hr : (c.line l).record.fn = .printerReady →
      (c.printer (c.line l).record.obj).state ≠ .stalled) :
    sampleLine top c l = c ∧ ((c.line l).record.fn.samples = false ∨ c.pinActive l = (c.line l).sampled) ∨
      sampleLine top c l = c.putLine l { c.line l with sampled := c.pinActive l } ∧
        (c.line l).record.fn.samples = true := by
  have htop : ∀ v b, top v (c.putLine l { c.line l with sampled := b }) = c.putLine l { c.line l with sampled := b } :=
    fun v b => top_of_noReactions (c := c.putLine l { c.line l with sampled := b }) hn v
  have hst : ∀ b, ¬ ((c.line l).record.fn = .printerReady ∧
      ((c.putLine l { c.line l with sampled := b }).printer (c.line l).record.obj).state = .stalled) :=
    fun b h => hr h.1 h.2
  cases hs : (c.line l).record.fn.samples
  · exact .inl ⟨by simp [sampleLine, hs], .inl rfl⟩
  · by_cases he : c.pinActive l = (c.line l).sampled
    · exact .inl ⟨by simp [sampleLine, he], .inr he⟩
    · refine .inr ⟨?_, rfl⟩
      cases hp : c.pinActive l <;> rw [hp] at he <;> simp [sampleLine, hs, hp, Ne.symm he, htop, hst]

/-- The lines sampled at a tick, where neither a reaction nor a printer takes an edge. -/
theorem sampleTick_spec {c : Chip} (hn : c.noReactions) (hr : ∀ l < 8, (c.line l).record.fn = .printerReady →
      (c.printer (c.line l).record.obj).state ≠ .stalled) :
    c.sampledFrom ((List.range 8).foldl (sampleLine top) c) ∧ ∀ l, ((List.range 8).foldl (sampleLine top) c).line l =
      if l < 8 ∧ (c.line l).record.fn.samples = true then { c.line l with sampled := c.pinActive l } else c.line l := by
  have stepped : ∀ d, ∀ l ∈ List.range 8, c.sampledFrom d → _ := fun d l hl hd =>
    sampleLine_cases (c := d) (l := l) (hd.noReactions hn) fun hf => by
      rw [hd.printer, (hd.2 l).1]
      rw [(hd.2 l).1] at hf
      exact hr l (List.mem_range.mp hl) hf
  obtain ⟨h1, h2⟩ := foldl_table (get := Chip.line) (P := c.sampledFrom) (l := List.range 8)
    (step := sampleLine top)
    (val := fun l v => if v.record.fn.samples then { v with sampled := c.pinActive l } else v)
    (fun d l hl hd => by
      rcases stepped d l hl hd with ⟨h, -⟩ | ⟨h, -⟩ <;> rw [h]
      · exact hd
      · exact hd.put _ _)
    (fun d l hl hd k => by
      rcases stepped d l hl hd with ⟨h, hs⟩ | ⟨h, hs⟩ <;> rw [h, ← hd.pinActive]
      · split
        · next hk =>
          subst hk
          rcases hs with hs | hs
          · rw [if_neg (by simp [hs])]
          · rw [hs, ite_self]
        · rfl
      · rw [line_putLine]
        split
        · next hk =>
          subst hk
          rw [if_pos hs]
        · rfl)
    List.nodup_range (sampledFrom_refl c)
  refine ⟨h1, fun l => (h2 l).trans ?_⟩
  by_cases hl : l < 8 <;> simp [hl]

/-! ### The counts lowered -/

/-- Nothing but the jobs sets `d` apart from `c`. -/
def Chip.jobsFrom (c d : Chip) : Prop := d = c.withPrt { c.prt with jobs := d.prt.jobs }

theorem Chip.jobsFrom.put {c d : Chip} (h : c.jobsFrom d) (j : Nat) (v : Job) : c.jobsFrom (d.putJob j v) := by
  unfold Chip.jobsFrom
  conv_lhs => rw [Chip.putJob, h]
  rfl

/-- The trunks' countdowns lowered (R115). -/
theorem tickTrunks_spec {c d : Chip} (hd : d = (List.range 4).foldl tickTrunk c) : c.trunksFrom d ∧
    ∀ k, d.trunk k =
      if k < 4 then { c.trunk k with
        countdown := (c.trunk k).countdown.map (· - 1)
        clearCountdown := (c.trunk k).clearCountdown.map (· - 1) }
      else c.trunk k := by
  subst hd
  obtain ⟨h1, h2⟩ := foldl_table (get := Chip.trunk) (step := tickTrunk) (P := c.trunksFrom) (l := List.range 4)
    (val := fun _ r => { r with countdown := lowered r.countdown, clearCountdown := lowered r.clearCountdown })
    (fun d t _ h => h.put ..)
    (fun d t _ h k => by
      refine (trunk_putTrunk _ _ _ _).trans ?_
      split
      · next hk => rw [hk]
      · rfl)
    List.nodup_range (c := c) rfl
  exact ⟨h1, fun k => by rw [h2, if_congr List.mem_range rfl rfl]; rfl⟩

/-- The jobs' countdowns lowered (R140, R149). -/
theorem tickJobs_spec {c d : Chip} (hd : d = (List.range Config.jobRecords).foldl tickJob c) : c.jobsFrom d ∧
    ∀ j, d.job j =
      if j < 32 then { c.job j with
        idle := (c.job j).idle.map (· - 1)
        grace := (c.job j).grace.map (· - 1) }
      else c.job j := by
  subst hd
  obtain ⟨h1, h2⟩ := foldl_table (get := Chip.job) (step := tickJob) (P := c.jobsFrom) (l := List.range Config.jobRecords)
    (val := fun _ v => { v with idle := lowered v.idle, grace := lowered v.grace })
    (fun d t _ h => h.put ..)
    (fun d t _ h k => by
      refine (job_putJob _ _ _ _).trans ?_
      split
      · next hk => rw [hk]
      · rfl)
    List.nodup_range (c := c) rfl
  exact ⟨h1, fun k => by rw [h2, if_congr List.mem_range rfl rfl]; rfl⟩

/-- The counts of the RUNNING timers lowered (R164). -/
theorem tickTimers_spec {c d : Chip} (hd : d = (List.range 4).foldl tickTimer c) : c.timersFrom d ∧
    ∀ k, d.timer k =
      if k < 4 ∧ (c.timer k).running = true then { c.timer k with count := (c.timer k).count - 1 } else c.timer k := by
  subst hd
  obtain ⟨h1, h2⟩ := foldl_table (get := Chip.timer) (step := tickTimer) (P := c.timersFrom) (l := List.range 4)
    (val := fun _ v => if v.running then { v with count := v.count - 1 } else v)
    (fun d k _ h => by
      dsimp only [tickTimer]
      split
      · exact h.put ..
      · exact h)
    (fun d n _ h k => by
      dsimp only [tickTimer]
      split
      · next hs =>
        rw [timer_putTimer]
        split
        · next hk => rw [hk, if_pos hs]
        · rfl
      · next hs =>
        split
        · next hk => rw [hk, if_neg hs]
        · rfl)
    List.nodup_range (c := c) rfl
  refine ⟨h1, fun k => (h2 k).trans ?_⟩
  by_cases hk : k < 4 <;> simp [hk]

/-! ### A tick -/

/-- The part after a tick that neither a reaction nor a printer takes (R49, R102, R115, R140, R149, R164, R169). -/
def Chip.ticked (c d : Chip) (pins : Octet) : Prop :=
  d = { c with
    pins := pins
    stn := { c.stn with
      clock := c.stn.clock + 1
      secondDue := decide ((c.stn.clock + 1).toNat % 100 = 0) }
    hlth := { c.hlth with
      trunks := d.hlth.trunks
      decayCount := min 65535 (c.hlth.decayCount + 1)
      decayDue := decide (c.ctl.health.decayInterval ≤ min 65535 (c.hlth.decayCount + 1)) }
    prt := { c.prt with jobs := d.prt.jobs }
    rct := { c.rct with timers := d.rct.timers, lines := d.rct.lines } }

/-- The frames of a tick's parts, put together. -/
theorem ticked_of_frames {c c1 c2 c3 c4 : Chip} {pins : Octet}
    (ht : (tickDecay (tickClock (c.withPins pins))).trunksFrom c1) (hj : c1.jobsFrom c2) (hm : c2.timersFrom c3)
    (hl : c4 = c3.withRct { c3.rct with lines := c4.rct.lines }) : c.ticked c4 pins := by
  unfold Chip.trunksFrom at ht
  unfold Chip.jobsFrom at hj
  unfold Chip.timersFrom at hm
  generalize c1.hlth.trunks = trunks at ht
  generalize c2.prt.jobs = jobs at hj
  generalize c3.rct.timers = timers at hm
  generalize c4.rct.lines = lines at hl
  subst ht hj hm hl
  rfl

/-- A tick in RUN with nothing left due. -/
theorem runTick_spec {pins : Octet} {c d : Chip} (hd : d = runTick top pins c) (hdue : c.nothingDue) (hn : c.noReactions)
    (hr : ∀ l < 8, (c.line l).record.fn = .printerReady → (c.printer (c.line l).record.obj).state ≠ .stalled) :
    c.ticked d pins ∧
    (∀ k, d.trunk k = if k < 4 then { c.trunk k with
        countdown := (c.trunk k).countdown.map (· - 1)
        clearCountdown := (c.trunk k).clearCountdown.map (· - 1) } else c.trunk k) ∧
    (∀ j, d.job j = if j < 32 then { c.job j with
        idle := (c.job j).idle.map (· - 1)
        grace := (c.job j).grace.map (· - 1) } else c.job j) ∧
    (∀ k, d.timer k = if k < 4 ∧ (c.timer k).running = true then { c.timer k with count := (c.timer k).count - 1 }
      else c.timer k) ∧
    ∀ l, d.line l = if l < 8 ∧ (c.line l).record.fn.samples = true then
      { c.line l with sampled := Chip.pinActive { c with pins := pins } l } else c.line l := by
  dsimp only [runTick] at hd
  rw [takeDue_of_nothingDue top hdue] at hd
  obtain ⟨c1, e1⟩ : ∃ v, v = (List.range 4).foldl tickTrunk (tickDecay (tickClock (c.withPins pins))) := ⟨_, rfl⟩
  obtain ⟨c2, e2⟩ : ∃ v, v = (List.range Config.jobRecords).foldl tickJob c1 := ⟨_, rfl⟩
  obtain ⟨c3, e3⟩ : ∃ v, v = (List.range 4).foldl tickTimer c2 := ⟨_, rfl⟩
  rw [← e1, ← e2, ← e3] at hd
  obtain ⟨ht, ht'⟩ := tickTrunks_spec e1
  obtain ⟨hj, hj'⟩ := tickJobs_spec e2
  obtain ⟨hm, hm'⟩ := tickTimers_spec e3
  have hf := ticked_of_frames (c4 := c3) ht hj hm rfl
  have hrct : c2.rct = c.rct := (by rw [hj]; rfl : c2.rct = c1.rct).trans (by rw [ht]; rfl)
  have hprt : c1.prt = c.prt := by rw [ht]; rfl
  have hlines : c3.rct.lines = c.rct.lines := (by rw [hm]; rfl : c3.rct.lines = c2.rct.lines).trans (by rw [hrct])
  have hline : ∀ l, c3.line l = c.line l := fun l => by simp only [Chip.line, hlines]
  have hprinter : ∀ p, c3.printer p = c.printer p := fun p => by
    rw [hf]
    rfl
  have hn3 : c3.noReactions := by
    rw [hf]
    exact hn
  obtain ⟨⟨hl, -⟩, hl'⟩ := sampleTick_spec hn3 fun l => by
    rw [hline, hprinter]
    exact hr l
  rw [← hd] at hl hl'
  refine ⟨ticked_of_frames ht hj hm hl, fun k => ?_, fun j => ?_, fun k => ?_, fun l => ?_⟩
  · have hh : d.hlth = c1.hlth :=
      calc d.hlth = c3.hlth := by rw [hl]; rfl
        _ = c2.hlth := by rw [hm]; rfl
        _ = c1.hlth := by rw [hj]; rfl
    rw [Chip.trunk_of_hlth hh]
    exact ht' k
  · have hp : d.prt = c2.prt := (by rw [hl]; rfl : d.prt = c3.prt).trans (by rw [hm]; rfl)
    rw [Chip.job_of_prt hp, hj', Chip.job_of_prt hprt]
  · have ht : d.rct.timers = c3.rct.timers := by rw [hl]; rfl
    rw [show d.timer k = c3.timer k by simp only [Chip.timer, ht], hm', Chip.timer_of_rct hrct]
  · have hpin : c3.pinActive l = Chip.pinActive { c with pins := pins } l :=
      pinActive_congr (by rw [hf]) (by rw [hf]) (congrArg Line.record (hline l))
    rw [hl', hline, hpin]

/-- Settles O4: steps that are not due, ticks outside RUN, and a tick in RUN with nothing left due. -/
theorem ticksAdvanceTheCounts : Obligations.TicksAdvanceTheCounts := by
  unfold Obligations.TicksAdvanceTheCounts
  have same : ∀ (s : State) (f : Chip → Chip), f s.chip = s.chip → s.onChip f = s := fun s f h => by
    rw [State.onChip, h]
    rfl
  refine ⟨fun s => ⟨fun pins hm => ?_, fun h => ?_, fun h => ?_, fun t h => ?_, fun t h => ?_, fun t h => ?_,
    fun j h => ?_, fun j h => ?_, fun k h => ?_⟩, fun pins s hm hdue hn hr => ?_⟩
  · exact congrArg (fun v => Host.Outcome.next (s.withChip v)) (if_neg hm)
  · exact congrArg Host.Outcome.next (same s _ (if_neg (by simp [h])))
  · exact congrArg Host.Outcome.next (same s _ (if_neg (by simp [h])))
  · exact congrArg Host.Outcome.next (same s _ (if_neg (by simp [h])))
  · exact congrArg Host.Outcome.next (same s _ (if_neg (by simp [h])))
  · exact congrArg Host.Outcome.next (same s _ (if_neg h))
  · exact congrArg Host.Outcome.next (same s _ (if_neg h))
  · exact congrArg Host.Outcome.next (same s _ (if_neg h))
  · exact congrArg Host.Outcome.next (same s _ (if_neg (by simp [h])))
  · obtain ⟨h1, h2, h3, h4, h5⟩ := runTick_spec (pins := pins) rfl hdue hn hr
    have hwork : tickWork top pins s.chip = runTick top pins s.chip := if_pos hm
    rw [← hwork] at h1 h2 h3 h4 h5
    exact ⟨s.onChip (tickWork top pins), rfl, ⟨rfl, ⟨rfl, rfl, rfl⟩⟩, h1, h2, h3, h4, h5⟩

end Sys2Proof.Machine

/-! PROOF. The unit record's commit (R19, R20, R23, R59, R124, R155, R180), in PASS with no job in use and no printer
queue or ring in use. -/

namespace Sys2Proof.Machine

/-! ### The event unit begun again (R180) -/

/-- The indices, the unread counts and NOTICE at their starting values. -/
def Chip.eventsAnew (c : Chip) : Prop :=
  c.evt.shown = 0 ∧ c.evt.consumer = 0 ∧ c.evt.unread = [] ∧ c.evt.notice = false

theorem eventsAnew_of_evt {c d : Chip} (h : d.evt = c.evt) (hc : c.eventsAnew) : d.eventsAnew := by
  rwa [Chip.eventsAnew, h]

theorem recordEvent_eventsAnew {c : Chip} (v : Event) (h : c.eventsAnew) : (recordEvent v c).eventsAnew := by
  obtain ⟨h1, h2, h3, h4⟩ := recordEvent_notice v c
  obtain ⟨k1, k2, k3, k4⟩ := h
  exact ⟨h3.trans k1, h4.trans k2, h2.trans k3, h1.trans k4⟩

theorem formEvent_eventsAnew {c : Chip} (v : Event) (h : c.eventsAnew) : (formEvent v c).eventsAnew := by
  obtain ⟨h1, h2, h3, h4⟩ := h
  unfold Chip.eventsAnew formEvent
  split <;> simp [h1, h2, h3, h4]

/-- A new unit record begins the event unit again; what the other units hold is left. -/
theorem resetEvents_spec (c : Chip) : (resetEvents c).eventsAnew ∧ (resetEvents c).ctl = c.ctl ∧
    (resetEvents c).frm = c.frm ∧ (resetEvents c).stn = c.stn ∧ (resetEvents c).hlth = c.hlth ∧
    (resetEvents c).prt = c.prt := by
  unfold resetEvents
  dsimp only
  generalize he : formDeposit .event .uncounted _ _ _ = e
  have ha : e.eventsAnew := by
    subst he
    exact eventsAnew_of_evt (formDeposit_evt ..) ⟨rfl, rfl, rfl, rfl⟩
  have hk : e.ctl = c.ctl ∧ e.frm = c.frm ∧ e.stn = c.stn ∧ e.hlth = c.hlth ∧ e.prt = c.prt := by
    subst he
    refine ⟨?_, ?_, ?_, ?_, ?_⟩ <;> simp [redriveNotice]
  split
  · exact ⟨formEvent_eventsAnew _ ha, by simpa using hk⟩
  · exact ⟨ha, hk⟩

/-! ### Trunks (R124) -/

/-- No job is in use. -/
def Chip.jobsFree (c : Chip) : Prop := ∀ j, (c.job j).state = .free

/-- With no job in use a trunk's change suspends and resumes none (R148, R149). -/
theorem jobsFollowTrunk_free (g : Give) {c : Chip} (h : c.jobsFree) (t : Nat) (old new : TrunkState) :
    jobsFollowTrunk g t old new c = c := by
  have hs : ∀ j, c.suspendable t j = false := fun j => by simp [Chip.suspendable, h j]
  have hr : ∀ j, (c.job j).suspended = false := fun j => by simp [Job.suspended, h j]
  unfold jobsFollowTrunk
  rw [List.foldl_fixed' fun j => if_neg (by simp [hs]), List.foldl_fixed' fun j => if_neg (by simp [hr])]
  simp only [ite_self]

/-- What a trunk's change by a unit record hands on in PASS with no job in use: its event, and the lines. -/
theorem handOnTrunk_free {c : Chip} (hm : c.ctl.mode ≠ .run) (h : c.jobsFree) (t : Nat) (old : TrunkState) :
    handOnTrunk top t old .unitRecord c =
      redriveLines (recordEvent (evTrunkState t old (c.trunk t).state (c.trunk t).strikes .unitRecord) c) := by
  have hr : receiving (fun later => jobsFollowTrunk later t old (c.trunk t).state) c = ([], c) := by
    unfold receiving
    dsimp only
    rw [jobsFollowTrunk_free (c := c.withRct { c.rct with received := [] }) _ h]
    rfl
  have htop : ∀ v e, top v (redriveLines (recordEvent e c)) = redriveLines (recordEvent e c) := fun v e =>
    top_of_not_run (by simpa [redriveLines] using hm)
  unfold handOnTrunk
  simp only [if_true, hr, htop, List.foldl_nil]

/-- Nothing but the trunks, the driven levels, the queue and the events sets `d` apart from `c`. -/
def Chip.trunksOnly (c d : Chip) : Prop :=
  d.ctl = c.ctl ∧ d.frm = c.frm ∧ d.stn = c.stn ∧ d.prt = c.prt ∧ (c.eventsAnew → d.eventsAnew)

/-- A trunk moved by a unit record in PASS with no job in use. -/
theorem moveTrunk_free {c : Chip} (hm : c.ctl.mode ≠ .run) (h : c.jobsFree) (t : Nat) (r : Trunk) :
    c.trunksOnly (moveTrunk top t r .unitRecord c) ∧
      ∀ k, (moveTrunk top t r .unitRecord c).trunk k = if k = t then r else c.trunk k := by
  have hput : ∀ e, (redriveLines (recordEvent e (c.putTrunk t r))).hlth = (c.putTrunk t r).hlth := fun e =>
    recordEvent_hlth ..
  unfold moveTrunk
  dsimp only
  split
  · exact ⟨⟨rfl, rfl, rfl, rfl, id⟩, fun k => trunk_putTrunk ..⟩
  · rw [handOnTrunk_free (c := c.putTrunk t r) hm h]
    refine ⟨⟨recordEvent_ctl .., recordEvent_frm .., recordEvent_stn .., recordEvent_prt .., fun ha => ?_⟩, fun k => ?_⟩
    · exact recordEvent_eventsAnew (c := c.putTrunk t r) _ ha
    · rw [Chip.trunk_of_hlth (hput _), trunk_putTrunk]

/-- The trunks after a unit record in PASS with no job in use (R124). -/
theorem trunksUnitCommit_free {c d : Chip} {old : Nat} (hd : d = trunksUnitCommit top old c) (hm : c.ctl.mode ≠ .run)
    (h : c.jobsFree) : c.trunksOnly d ∧ ∀ k, d.trunk k =
      if k < 4 ∧ c.ctl.unit.nt ≤ k ∧ k < old then Trunk.absent
      else if k < 4 ∧ old ≤ k ∧ k < c.ctl.unit.nt then Trunk.fresh
      else c.trunk k := by
  subst hd
  have free : ∀ d, c.trunksOnly d → d.ctl = c.ctl ∧ d.ctl.mode ≠ .run ∧ d.jobsFree := fun d ⟨hc, _, _, hp, _⟩ =>
    ⟨hc, by rwa [hc], fun j => by rw [Chip.job_of_prt hp]; exact h j⟩
  have move : ∀ d t r, c.trunksOnly d → c.trunksOnly (moveTrunk top t r .unitRecord d) := fun d t r hd => by
    obtain ⟨-, hdm, hdj⟩ := free d hd
    obtain ⟨⟨k1, k2, k3, k4, k5⟩, -⟩ := moveTrunk_free hdm hdj t r
    obtain ⟨h1, h2, h3, h4, h5⟩ := hd
    exact ⟨k1.trans h1, k2.trans h2, k3.trans h3, k4.trans h4, k5 ∘ h5⟩
  obtain ⟨h1, h2⟩ := foldl_table (get := Chip.trunk) (P := c.trunksOnly) (l := List.range 4)
    (step := fun d t =>
      if d.ctl.unit.nt ≤ t ∧ t < old then moveTrunk top t Trunk.absent .unitRecord d
      else if old ≤ t ∧ t < d.ctl.unit.nt then moveTrunk top t Trunk.fresh .unitRecord d
      else d)
    (val := fun t r => if c.ctl.unit.nt ≤ t ∧ t < old then Trunk.absent
      else if old ≤ t ∧ t < c.ctl.unit.nt then Trunk.fresh else r)
    (fun d t _ hd => by
      split
      · exact move _ _ _ hd
      · split
        · exact move _ _ _ hd
        · exact hd)
    (fun d t _ hd k => by
      obtain ⟨hc, hdm, hdj⟩ := free d hd
      rw [hc]
      by_cases ha : c.ctl.unit.nt ≤ t ∧ t < old
      · rw [if_pos ha, if_pos ha, (moveTrunk_free hdm hdj _ _).2]
      · rw [if_neg ha, if_neg ha]
        by_cases hb : old ≤ t ∧ t < c.ctl.unit.nt
        · rw [if_pos hb, if_pos hb, (moveTrunk_free hdm hdj _ _).2]
        · rw [if_neg hb, if_neg hb]
          split
          · next hk => rw [hk]
          · rfl)
    List.nodup_range (c := c) ⟨rfl, rfl, rfl, rfl, id⟩
  refine ⟨h1, fun k => (h2 k).trans ?_⟩
  by_cases hk : k < 4 <;> simp [hk]

/-! ### Printers (R155) -/

/-- No printer has a claim, a job that waits, or an entry in its ring. -/
def Chip.printersIdle (c : Chip) : Prop :=
  ∀ p, (c.printer p).claim = none ∧ (c.printer p).queue = [] ∧ ∀ i, (c.desc p i).entry = none

/-- With no job waiting there is none to move (R160, R161). -/
theorem failover_idle (srv : Nat → Chip → Chip) {c : Chip} (h : ∀ p, (c.printer p).queue = []) (p : Nat)
    (old new : PrinterState) : failover srv p old new c = c := by
  have hm : ∀ a b, moveJobs srv a b c = c := fun a b => if_pos (by rw [h]; rfl)
  unfold failover
  simp only [hm, ite_self]

/-- With no claim and nothing in the ring there is nothing to take back (R154). -/
theorem takeBack_idle (srv : Nat → Chip → Chip) (g : Give) {c : Chip} (h : c.printersIdle) (p : Nat) :
    takeBack srv g p c = c := by
  obtain ⟨hc, -, hd⟩ := h p
  have hr : c.ringEntries p = [] := List.filterMap_eq_nil_iff.mpr fun _ _ => hd _
  simp only [takeBack, hr, List.foldl_nil, hc]

/-- Nothing but the printers, the driven levels, the queue and the events sets `d` apart from `c`. -/
def Chip.printersOnly (c d : Chip) : Prop :=
  d.ctl = c.ctl ∧ d.frm = c.frm ∧ d.stn = c.stn ∧ d.hlth = c.hlth ∧ (c.eventsAnew → d.eventsAnew)

theorem Chip.printersOnly.trans {c d f : Chip} (h : c.printersOnly d) (k : d.printersOnly f) : c.printersOnly f := by
  obtain ⟨h1, h2, h3, h4, h5⟩ := h
  obtain ⟨k1, k2, k3, k4, k5⟩ := k
  exact ⟨k1.trans h1, k2.trans h2, k3.trans h3, k4.trans h4, k5 ∘ h5⟩

theorem resetView_printer (p k : Nat) (c : Chip) : (resetView p c).printer k =
    if k = p then { c.printer p with produced := 0, done := 0, descs := [] } else c.printer k :=
  printer_putPrinter ..

/-- A printer's state set in PASS, no printer claimed or waited for. -/
theorem setPrinterState_idle {c : Chip} (hm : c.ctl.mode ≠ .run)
    (h : ∀ p, (c.printer p).claim = none ∧ (c.printer p).queue = []) (p : Nat) (new : PrinterState)
    (cause : PrinterCause) : c.printersOnly (setPrinterState (serve top) top p new cause c) ∧
      ∀ k, (setPrinterState (serve top) top p new cause c).printer k =
        if k = p then { c.printer p with state := new } else c.printer k := by
  unfold setPrinterState
  dsimp only
  split
  · next ho =>
    refine ⟨⟨rfl, rfl, rfl, rfl, id⟩, fun k => ?_⟩
    split
    · next hk =>
      rw [hk, ← ho]
    · rfl
  · obtain ⟨e, he⟩ : ∃ e, e = recordEvent (evPrinterState p (c.printer p).state new cause)
      (redriveLines (c.putPrinter p { c.printer p with state := new })) := ⟨_, rfl⟩
    have hprt : e.prt = (c.putPrinter p { c.printer p with state := new }).prt := by
      rw [he]
      exact recordEvent_prt ..
    have hp : ∀ k, e.printer k = if k = p then { c.printer p with state := new } else c.printer k := fun k => by
      rw [Chip.printer_of_prt hprt, printer_putPrinter]
    have hidle : ∀ k, (e.printer k).claim = none ∧ (e.printer k).queue = [] := fun k => by
      rw [hp]
      split
      · exact h p
      · exact h k
    have hem : e.ctl = c.ctl := by
      rw [he]
      exact recordEvent_ctl ..
    rw [← he, failover_idle _ (fun k => (hidle k).2), serve_idle _ (hidle p)]
    have ht : printerTrigger top p new e = e := by
      cases new
      case ready | stalled => exact top_of_not_run (by rwa [hem])
      all_goals rfl
    rw [ht]
    refine ⟨⟨hem, ?_, ?_, ?_, fun ha => ?_⟩, hp⟩ <;> rw [he]
    · exact recordEvent_frm ..
    · exact recordEvent_stn ..
    · exact recordEvent_hlth ..
    · exact recordEvent_eventsAnew _ ha

/-- A printer that comes into or goes out of force in PASS, none claimed or waited for: its view starts again, its
state is set. -/
theorem viewAndState_idle {c : Chip} (hm : c.ctl.mode ≠ .run) (h : c.printersIdle) (p : Nat) (new : PrinterState)
    (cause : PrinterCause) : c.printersOnly (setPrinterState (serve top) top p new cause (resetView p c)) ∧
      (setPrinterState (serve top) top p new cause (resetView p c)).printersIdle ∧
      ∀ k, (setPrinterState (serve top) top p new cause (resetView p c)).printer k =
        if k = p then { Printer.blank with state := new } else c.printer k := by
  obtain ⟨hc, hq, -⟩ := h p
  have hv : ∀ k, ((resetView p c).printer k).claim = none ∧ ((resetView p c).printer k).queue = [] := fun k => by
    rw [resetView_printer]
    split
    · exact ⟨hc, hq⟩
    · exact ⟨(h k).1, (h k).2.1⟩
  obtain ⟨⟨h1, h2, h3, h4, h5⟩, h6⟩ := setPrinterState_idle (c := resetView p c) hm hv p new cause
  generalize setPrinterState (serve top) top p new cause (resetView p c) = d at h1 h2 h3 h4 h5 h6 ⊢
  have hd : ∀ k, d.printer k = if k = p then { Printer.blank with state := new } else c.printer k := fun k => by
    rw [h6, resetView_printer, resetView_printer, if_pos rfl]
    split
    · simp only [hc, hq, Printer.blank]
    · rfl
  refine ⟨⟨h1, h2, h3, h4, h5⟩, fun k => ?_, hd⟩
  by_cases hk : k = p
  · simp [Chip.desc, hd, hk, Printer.blank, Desc.blank]
  · simp only [Chip.desc, hd, hk, if_false]
    exact h k

/-- One printer at a unit record's commit, by the NP before it. -/
def printerUnitCommit (old : Nat) (c : Chip) (p : Nat) : Chip :=
  if c.ctl.unit.np ≤ p ∧ p < old then
    setPrinterState (serve top) top p .disabled .unitRecord (resetView p (takeBack (serve top) top p c))
  else if old ≤ p ∧ p < c.ctl.unit.np then
    setPrinterState (serve top) top p (if (c.printerRec p).enabled then .ready else .disabled) .unitRecord (resetView p c)
  else c

theorem printersUnitCommit_eq (old : Nat) (c : Chip) :
    printersUnitCommit top old c = (List.range 8).foldl (printerUnitCommit old) c := rfl

/-- What one printer's record becomes at a unit record's commit, by the records in force of part `c`. -/
def Chip.printerAfter (c : Chip) (old p : Nat) (v : Printer) : Printer :=
  if c.ctl.unit.np ≤ p ∧ p < old then Printer.blank
  else if old ≤ p ∧ p < c.ctl.unit.np then
    { Printer.blank with state := if (c.printerRec p).enabled then .ready else .disabled }
  else v

theorem printerUnitCommit_idle {c : Chip} (hm : c.ctl.mode ≠ .run) (h : c.printersIdle) (old p : Nat) :
    c.printersOnly (printerUnitCommit old c p) ∧ (printerUnitCommit old c p).printersIdle ∧
      ∀ k, (printerUnitCommit old c p).printer k = if k = p then c.printerAfter old p (c.printer k) else c.printer k := by
  unfold printerUnitCommit Chip.printerAfter
  rw [takeBack_idle _ _ h]
  split
  · exact viewAndState_idle hm h p .disabled .unitRecord
  · split
    · exact viewAndState_idle hm h p _ .unitRecord
    · exact ⟨⟨rfl, rfl, rfl, rfl, id⟩, h, fun k => by rw [ite_self]⟩

/-- The printers after a unit record in PASS, none claimed, waited for, or with a ring in use (R155). -/
theorem printersUnitCommit_idle {c d : Chip} {old : Nat} (hd : d = printersUnitCommit top old c)
    (hm : c.ctl.mode ≠ .run) (h : c.printersIdle) : c.printersOnly d ∧ ∀ p, d.printer p =
      if p < 8 ∧ c.ctl.unit.np ≤ p ∧ p < old then Printer.blank
      else if p < 8 ∧ old ≤ p ∧ p < c.ctl.unit.np then
        { Printer.blank with state := if (c.printerRec p).enabled then .ready else .disabled }
      else c.printer p := by
  rw [printersUnitCommit_eq] at hd
  obtain ⟨h1, h2⟩ := foldl_table (get := Chip.printer) (P := fun d => c.printersOnly d ∧ d.printersIdle)
    (l := List.range 8) (step := printerUnitCommit old) (val := c.printerAfter old)
    (fun d p _ hd => by
      obtain ⟨hd, hi⟩ := hd
      obtain ⟨k1, k2, -⟩ := printerUnitCommit_idle (c := d) (by rwa [hd.1]) hi old p
      exact ⟨hd.trans k1, k2⟩)
    (fun d p _ hd k => by
      obtain ⟨hd, hi⟩ := hd
      have hc : d.ctl = c.ctl := hd.1
      have hv : d.printerAfter old p = c.printerAfter old p := by
        unfold Chip.printerAfter Chip.printerRec
        rw [hc]
      rw [← hv]
      exact (printerUnitCommit_idle (c := d) (by rwa [hc]) hi old p).2.2 k)
    List.nodup_range (c := c) ⟨⟨rfl, rfl, rfl, rfl, id⟩, h⟩
  rw [← hd] at h1 h2
  refine ⟨h1.1, fun p => (h2 p).trans ?_⟩
  by_cases hp : p < 8 <;> simp [hp, Chip.printerAfter]

/-! ### Stations (R59, R78) -/

/-- Nothing but the station unit, the queue and the events sets `d` apart from `c`. -/
def Chip.stationsOnly (c d : Chip) : Prop :=
  d.ctl = c.ctl ∧ d.frm = c.frm ∧ d.hlth = c.hlth ∧ d.prt = c.prt ∧ (c.eventsAnew → d.eventsAnew)

theorem Chip.stationsOnly.refl (c : Chip) : c.stationsOnly c := ⟨rfl, rfl, rfl, rfl, id⟩

theorem Chip.stationsOnly.put {c d : Chip} (h : c.stationsOnly d) (n : Nat) (v : Station) :
    c.stationsOnly (d.putStation n v) := h

theorem Chip.stationsOnly.event {c d : Chip} (h : c.stationsOnly d) (v : Event) : c.stationsOnly (recordEvent v d) := by
  obtain ⟨h1, h2, h3, h4, h5⟩ := h
  exact ⟨(recordEvent_ctl ..).trans h1, (recordEvent_frm ..).trans h2, (recordEvent_hlth ..).trans h3,
    (recordEvent_prt ..).trans h4, fun ha => recordEvent_eventsAnew _ (h5 ha)⟩

/-- No entry has an open job, and entry `u` is the one UNIT entry, none with `u` 0. -/
def Chip.oneUnit (u : Nat) (c : Chip) : Prop :=
  (∀ n, (c.station n).openJob = none) ∧ (u ≠ 0 → (c.station u).kind = .unit) ∧
    ∀ n, n ≠ 0 → n < 255 → (c.station n).kind = .unit → n = u

theorem oneUnit_of_stn {u : Nat} {c d : Chip} (h : d.stn = c.stn) (hc : c.oneUnit u) : d.oneUnit u := by
  have hs := Chip.station_of_stn h
  simpa only [Chip.oneUnit, hs] using hc

/-- An entry written without an open job, neither made UNIT nor so no longer. -/
theorem oneUnit_putStation {u n : Nat} {v : Station} {c : Chip} (h : c.oneUnit u) (ho : v.openJob = none)
    (hk : v.kind = .unit ↔ (c.station n).kind = .unit) : (c.putStation n v).oneUnit u := by
  obtain ⟨h1, h2, h3⟩ := h
  have hs : ∀ k, ((c.putStation n v).station k).kind = .unit ↔ (c.station k).kind = .unit := fun k => by
    rw [station_putStation]
    split
    · next he => rw [he, hk]
    · rfl
  refine ⟨fun k => ?_, fun hu => (hs u).mpr (h2 hu), fun k h0 h1 hu => h3 k h0 h1 ((hs k).mp hu)⟩
  rw [station_putStation]
  split
  · exact ho
  · exact h1 k

/-- What a pass over the station table keeps: all but the station unit, and the one UNIT entry. -/
def Chip.stationsKept (c : Chip) (u : Nat) (d : Chip) : Prop := c.stationsOnly d ∧ d.oneUnit u

theorem setPresence_kept {c d : Chip} {u : Nat} (h : c.stationsKept u d) (n : Nat) (v : Presence) :
    c.stationsKept u (setPresence n v d) := by
  obtain ⟨ho, hu⟩ := h
  unfold setPresence
  dsimp only
  split
  · exact ⟨ho, hu⟩
  · exact ⟨(ho.put ..).event _, oneUnit_of_stn (recordEvent_stn ..) (oneUnit_putStation hu (hu.1 n) Iff.rfl)⟩

theorem stationsCut_kept {c d : Chip} {u : Nat} (h : c.stationsKept u d) (t : Nat) :
    c.stationsKept u (stationsCut t d) :=
  List.foldlRecOn _ _ h fun _ hd n _ => by
    split
    · exact setPresence_kept hd _ _
    · exact hd

theorem stationsBack_kept {c d : Chip} {u : Nat} (h : c.stationsKept u d) (t : Nat) :
    c.stationsKept u (stationsBack t d) :=
  List.foldlRecOn _ _ h fun _ hd n _ => by
    dsimp only
    split
    · exact setPresence_kept hd _ _
    · exact hd

/-- A proxy freed or kept under the new range and base (R78). -/
theorem reviewProxy_kept {c d : Chip} {u : Nat} (h : c.stationsKept u d) (g : Give) (n : Nat) :
    c.stationsKept u (reviewProxy g d n) := by
  obtain ⟨ho, hu⟩ := h
  have ha : ∀ r, abandonOpen g n r d = d := fun r => by simp only [abandonOpen, hu.1 n]
  by_cases hk : (d.station n).kind = .proxy
  · have freed : ∀ r, c.stationsKept u (freeProxyEntry n r d) := fun r =>
      ⟨(ho.put ..).event _, oneUnit_of_stn (recordEvent_stn ..)
        (oneUnit_putStation hu rfl (by simp [hk, Station.blank]))⟩
    unfold reviewProxy
    simp only [hk, ha]
    split
    · exact absurd rfl ‹_›
    · split
      · exact freed _
      · split
        · exact freed _
        · exact ⟨ho, hu⟩
  · unfold reviewProxy
    rw [if_pos hk]
    exact ⟨ho, hu⟩

/-- The old UNIT entry gone: no other entry than U's is UNIT (R59 step 1). -/
theorem dropOldUnit_spec (c : Chip) : c.stationsOnly (dropOldUnit c) ∧ ∀ n, (dropOldUnit c).station n =
    if n ≠ 0 ∧ n < 255 ∧ (c.station n).kind = .unit ∧ n ≠ c.ctl.unit.u then Station.blank else c.station n := by
  obtain ⟨h1, h2⟩ := foldl_table (get := Chip.station) (P := c.stationsOnly) (l := stationNumbers)
    (step := fun c n => if (c.station n).kind = .unit ∧ n ≠ c.ctl.unit.u then emptyStation n c else c)
    (val := fun n v => if v.kind = .unit ∧ n ≠ c.ctl.unit.u then Station.blank else v)
    (fun d n _ hd => by
      split
      · exact hd.put ..
      · exact hd)
    (fun d n _ hd k => by
      rw [hd.1]
      by_cases h : (d.station n).kind = .unit ∧ n ≠ c.ctl.unit.u
      · rw [if_pos h, emptyStation, station_putStation]
        split
        · next hk => rw [hk, if_pos h]
        · rfl
      · rw [if_neg h]
        split
        · next hk => rw [hk, if_neg h]
        · rfl)
    stationNumbers_nodup (.refl c)
  refine ⟨h1, fun n => (h2 n).trans ?_⟩
  rw [if_congr mem_stationNumbers rfl rfl]
  by_cases hn : n ≠ 0 ∧ n < 255
  · rw [if_pos hn]
    exact if_congr (by tauto) rfl rfl
  · rw [if_neg hn, if_neg (by tauto)]

/-- Entry U made UNIT (R59 step 2): the one such entry. -/
theorem makeUnit_spec {c : Chip} (h : ∀ n, (c.station n).openJob = none) :
    c.stationsKept c.ctl.unit.u (makeUnit (dropOldUnit c)) := by
  obtain ⟨hs, hd⟩ := dropOldUnit_spec c
  have ho : ∀ n, ((dropOldUnit c).station n).openJob = none := fun n => by
    rw [hd]
    split
    · rfl
    · exact h n
  have hu : ∀ n, n ≠ 0 → n < 255 → ((dropOldUnit c).station n).kind = .unit → n = c.ctl.unit.u := fun n h0 h1 hk => by
    by_contra hne
    rw [hd] at hk
    split at hk
    · exact nomatch hk
    · next hc => exact hc ⟨h0, h1, hk, hne⟩
  have hc : (dropOldUnit c).ctl = c.ctl := hs.1
  unfold makeUnit
  dsimp only
  rw [hc]
  by_cases h0 : c.ctl.unit.u = 0
  · rw [if_pos h0]
    exact ⟨hs, ho, fun hne => absurd h0 hne, hu⟩
  · rw [if_neg h0]
    refine ⟨(hs.put ..).event _, oneUnit_of_stn (recordEvent_stn ..) ⟨fun n => ?_, fun _ => ?_, fun n hn0 hn1 hk => ?_⟩⟩
    · rw [station_putStation]
      split
      · rfl
      · exact ho n
    · rw [station_putStation, if_pos rfl]
    · rw [station_putStation] at hk
      split at hk
      · next he => exact he
      · exact hu n hn0 hn1 hk

/-- The stations after a unit record, no entry with an open job (R59, R78). -/
theorem stationsUnitCommit_kept {c : Chip} (h : ∀ n, (c.station n).openJob = none) (old : Nat) :
    c.stationsKept c.ctl.unit.u (stationsUnitCommit top old c) := by
  have cut : c.stationsKept c.ctl.unit.u _ := List.foldlRecOn (List.range 4)
    (fun d t => if c.ctl.unit.nt ≤ t ∧ t < old then stationsCut t d else d) (makeUnit_spec h) fun d hd t _ => by
      split
      · exact stationsCut_kept hd t
      · exact hd
  have back : c.stationsKept c.ctl.unit.u _ := List.foldlRecOn (List.range 4)
    (fun d t => if d.trunkUp t then stationsBack t d else d) cut fun d hd t _ => by
      split
      · exact stationsBack_kept hd t
      · exact hd
  have review := List.foldlRecOn stationNumbers (reviewProxy top) back fun d hd n _ => reviewProxy_kept hd top n
  have last : ∀ d, c.stationsKept c.ctl.unit.u d → c.stationsKept c.ctl.unit.u
      (d.withStn { d.stn with exhausted := false }) := fun _ hd => hd
  exact last _ review

/-! ### The commit (R19, R20, R23) -/

theorem unitRecOf_staged (c : Chip) : unitRecOf (c.recordWord .unit) =
    let w := fun k => (c.staged k).toNat
    { nt := max 1 (min 4 (w 32)), np := min 8 (w 33), nr := min 16 (w 34), c := min 3 (w 35), u := min 254 (w 36),
      pLo := max 1 (min 254 (w 37)), pHi := max 1 (min 254 (w 38)),
      aliasBase := BitVec.ofNat 48 (w 39 * 4294967296 + w 40 * 65536 + w 41 / 256 * 256),
      linkType := c.staged 42 } := by
  have hl : wordNat (c.staged 42).toNat = c.staged 42 := BitVec.ofNat_toNat 16 (c.staged 42) |>.trans (BitVec.setWidth_eq _)
  simp only [unitRecOf, clampTo_zero, Chip.recordWord, stagingKey, hiNat, Nat.add_zero]
  simp only [clampTo, hl]

/-- A unit record in force, in PASS with no job in use and no printer queue or ring in use. -/
theorem applyUnitRec_free {c d : Chip} {r : UnitRec} (hd : d = applyUnitRec top r c) (hm : c.ctl.mode ≠ .run)
    (hj : c.jobsFree) (ho : ∀ n, (c.station n).openJob = none) (hp : c.printersIdle) :
    d.ctl = { c.ctl with unit := r, unitCommitted := true } ∧ d.frm = c.frm ∧ d.eventsAnew ∧
    (∀ k, d.trunk k =
      if k < 4 ∧ r.nt ≤ k ∧ k < c.ctl.unit.nt then Trunk.absent
      else if k < 4 ∧ c.ctl.unit.nt ≤ k ∧ k < r.nt then Trunk.fresh
      else c.trunk k) ∧
    (∀ p, d.printer p =
      if p < 8 ∧ r.np ≤ p ∧ p < c.ctl.unit.np then Printer.blank
      else if p < 8 ∧ c.ctl.unit.np ≤ p ∧ p < r.np then
        { Printer.blank with state := if (c.printerRec p).enabled then .ready else .disabled }
      else c.printer p) ∧ d.oneUnit r.u := by
  obtain ⟨c1, e1⟩ : ∃ v, v = resetEvents (c.withCtl { c.ctl with unit := r, unitCommitted := true }) := ⟨_, rfl⟩
  obtain ⟨c2, e2⟩ : ∃ v, v = trunksUnitCommit top c.ctl.unit.nt c1 := ⟨_, rfl⟩
  obtain ⟨c3, e3⟩ : ∃ v, v = printersUnitCommit top c.ctl.unit.np c2 := ⟨_, rfl⟩
  have hd4 : d = stationsUnitCommit top c.ctl.unit.nt c3 := by
    rw [hd, e3, e2, e1]
    rfl
  have hk := resetEvents_spec (c.withCtl { c.ctl with unit := r, unitCommitted := true })
  rw [← e1] at hk
  obtain ⟨ka, kctl, kfrm, kstn, khlth, kprt⟩ := hk
  have hm1 : c1.ctl.mode ≠ .run := by rwa [kctl]
  obtain ⟨⟨tctl, tfrm, tstn, tprt, ta⟩, ht⟩ := trunksUnitCommit_free e2 hm1 fun j => by
    rw [Chip.job_of_prt kprt]
    exact hj j
  obtain ⟨⟨pctl, pfrm, pstn, phlth, pa⟩, hpr⟩ := printersUnitCommit_idle e3 (by rwa [tctl]) fun p => by
    simp only [Chip.desc, Chip.printer_of_prt (tprt.trans kprt)]
    exact hp p
  have hctl : c3.ctl = { c.ctl with unit := r, unitCommitted := true } := pctl.trans (tctl.trans kctl)
  obtain ⟨⟨sctl, sfrm, shlth, sprt, sa⟩, hu⟩ := stationsUnitCommit_kept (c := c3) (fun n => by
    rw [Chip.station_of_stn (pstn.trans (tstn.trans kstn))]
    exact ho n) c.ctl.unit.nt
  rw [← hd4] at sctl sfrm shlth sprt sa hu
  rw [hctl] at hu
  refine ⟨sctl.trans hctl, sfrm.trans (pfrm.trans (tfrm.trans kfrm)), sa (pa (ta ka)), fun k => ?_, fun p => ?_, hu⟩
  · rw [Chip.trunk_of_hlth (shlth.trans phlth), ht, kctl, Chip.trunk_of_hlth khlth]
    rfl
  · rw [Chip.printer_of_prt sprt, hpr, tctl, kctl, Chip.printer_of_prt (tprt.trans kprt), Chip.printerRec, tctl, kctl]
    rfl

/-- Settles O24: the record's two refusals, and its commit in PASS. -/
theorem unitRecordCommits : Obligations.UnitRecordCommits := by
  unfold Obligations.UnitRecordCommits
  intro d s hs c w u
  have hr : recordAt s.chip.ctl.unit 47 = some (.unit, 15) := rfl
  have wrote := fun hm => commitWrite_wrote hs hm (id := .unit) (o := 47) rfl (by decide) hr d
  have hrec := unitRecOf_staged c
  have hv : c.validate .unit =
      if c.ctl.mode = .run then .error .wrongMode
      else if u ≠ 0 ∧ (c.station u).openJob.isSome then .error .jobOpen
      else .ok (.unit (unitRecOf (c.recordWord .unit))) := by
    have hu : (unitRecOf (c.recordWord .unit)).u = u := by rw [hrec]
    simp only [Chip.validate, hu]
  have hm : c.ctl.mode = s.chip.ctl.mode := stagedLast_mode _ _ _
  have hstn : c.stn = s.chip.stn := strikeAt_stn _ _
  have hprt : c.prt = s.chip.prt := strikeAt_prt _ _
  have hst := Chip.station_of_stn hstn
  rw [hm, hst] at hv
  refine ⟨fun hm => ?_, fun hm hu hj => ?_, fun hm hj ho hp => ?_⟩ <;>
    obtain ⟨t, ht, hw, hc⟩ := wrote (by simp [hm]) <;> refine ⟨t, ht, hw, ?_⟩
  · rw [if_pos hm] at hv
    rw [hc, commitRecord_refused hv]
    exact refuseCommit_spec _ _ _
  · rw [if_neg (by simp [hm]), if_pos ⟨hu, hj⟩] at hv
    rw [hc, commitRecord_refused hv]
    exact refuseCommit_spec _ _ _
  · rw [if_neg (by simp [hm]), if_neg (by simp [ho])] at hv
    rw [commitRecord_ungated hv rfl] at hc
    have hidle : c.printersIdle := fun p => by
      simp only [Chip.desc, Chip.printer_of_prt hprt]
      exact hp p
    obtain ⟨h1, h2, ⟨h3, h4, h5, h6⟩, h7, h8, -, h9, h10⟩ := applyUnitRec_free (c := c) (d := t.chip) hc
      (by rw [stagedLast_mode, hm]; decide) (fun j => by rw [Chip.job_of_prt hprt]; exact hj j)
      (fun n => by rw [hst]; exact ho n) hidle
    have hunit : t.chip.ctl.unit = unitRecOf (c.recordWord .unit) := by rw [h1]
    have hold : c.ctl.unit = s.chip.ctl.unit := stagedLast_unit _ _ _
    have hu : (unitRecOf (c.recordWord .unit)).u = u := by rw [hrec]
    have hrecs : ∀ p, c.printerRec p = s.chip.printerRec p := fun p =>
      congrArg (tget PrinterRec.builtIn · p) (strikeAt_ctl_printers _ _)
    rw [hu] at h9 h10
    refine ⟨by rw [h1, hrec], h2, h3, h4, h5, h6, fun k => ?_, fun p => ?_, h9, h10⟩
    · rw [h7, hunit, hold, Chip.trunk_of_hlth (c := s.chip) (d := c) (strikeAt_hlth _ _)]
    · rw [h8, hunit, hold, hrecs, Chip.printer_of_prt hprt]

end Sys2Proof.Machine

/-! PROOF. A receive engine's reads and writes as its frame context takes them (R37, R38). -/

namespace Sys2Proof.Machine

/-! ### Reads of descriptor words 1 and 2 (R37) -/

theorem highPart_eq (d : Word) : highPart d = wordNat (bitsOf d 0 4) := by
  simp [highPart, bitsOf]

theorem checked_eq (x : Ctx) (old : Option Word) (new : Word) :
    x.checked old new = if old = none ∨ old = some new then x else { x with len := none, octets := [] } := by
  cases old with
  | none => rfl
  | some w => by_cases h : w = new <;> simp [Ctx.checked, h]

/-- A read of word 1 or 2 sets its own engine's context; a read of another word sets none (R37). -/
theorem readPart_ctx (e r : Engine) (i w : Nat) (d : Word) (c : Chip) :
    (readPart e i w d c).ctx r = if r = e ∧ (w = 1 ∨ w = 2) then (c.ctx e).afterRead i w d else c.ctx r := by
  unfold readPart
  dsimp only
  split
  · next h => simp [h, Ctx.afterRead, checked_eq, Ctx.naming, Ctx.blank]
  · split
    · next h => simp [h, Ctx.afterRead, checked_eq, Ctx.naming, Ctx.blank, highPart_eq]
    · next h1 h2 => simp [h1, h2]

/-- What a read that reaches memory makes of the contexts (R37). -/
theorem readShown_ctx (x : Access) (d : Word) (c : Chip) (e : Engine) : (readShown x d c).ctx e =
    match x.region with
    | .receive r off =>
      if r = e ∧ masterEngine x.master = some e ∧ (off % 8 = 1 ∨ off % 8 = 2) then
        (c.ctx e).afterRead (off / 8) (off % 8) d
      else c.ctx e
    | _ => c.ctx e := by
  unfold readShown
  cases hr : x.region with
  | receive r off =>
    cases hm : masterEngine x.master with
    | none => simp
    | some m =>
      simp only [Option.some.injEq]
      by_cases h : m = r
      · subst h
        rw [if_pos rfl, readPart_ctx]
        by_cases he : e = m
        · simp [he]
        · simp [he, Ne.symm he]
      · rw [if_neg h, if_neg (fun hc => h (hc.2.1.trans hc.1.symm))]
  | _ => rfl

/-- The buffer address is known once both its parts are (section 3.1). -/
theorem buffer_eq (x : Ctx) : x.buffer =
    if x.lo = none ∨ x.hi = none then none
    else some ((x.hi.getD 0).toNat % 16 * 65536 + (x.lo.getD 0).toNat) := by
  unfold Ctx.buffer
  cases x.lo <;> cases x.hi <;> rfl

/-- Settles O11: every read that reaches memory is `readAccess`, whose contexts `readShown_ctx` gives. -/
theorem descriptorReadsSetTheContext : Obligations.DescriptorReadsSetTheContext := by
  unfold Obligations.DescriptorReadsSetTheContext
  intro m a s read
  have hread : ∀ {t : State} {be d} {c : Chip}, (∀ e, c.ctx e = s.chip.ctx e) →
      t.chip = readShown (classed s.chip m false a be d) (readWord s.mem a.toNat) c → read t := by
    intro t be d c hc ht e
    refine ⟨?_, buffer_eq _⟩
    rw [ht, readShown_ctx, hc]
    rfl
  refine ⟨fun be hs => ?_, fun e be hm hs => ?_, fun pins be hb ha => ?_⟩
  · exact ⟨_, present_read hs m be, hread (fun _ => rfl) rfl⟩
  · subst hm
    obtain ⟨hframe, hheld, -⟩ :=
      readShown_frame (classed s.chip (engineMaster e) false a be 0) (readWord s.mem a.toNat) s.chip
    exact ⟨_, present_read hs (engineMaster e) be, rfl, rfl, rfl, rfl, hframe, hheld, hread (fun _ => rfl) rfl⟩
  · have hp := exec_stretchEnd_over (pins := pins) hb
      (stretchOver_of_ended (.inl rfl) (noSlotFor_of_completion (completion_of_read rfl)))
    rw [ha, grantAsked_nil] at hp
    exact ⟨_, hp, hread (c := s.chip.granting pins) (fun e => by cases e <;> rfl) rfl⟩

/-! ### Writes captured (R38) -/

theorem tget_captureWord (t : Table (Option Octet)) (k : Nat) (be : BitVec 2) (d : Word) (j : Nat) :
    tget none (captureWord t k be d) j =
      if j = 2 * k ∧ be.getLsbD 1 = true then some (hiOctet d)
      else if j = 2 * k + 1 ∧ be.getLsbD 0 = true then some (loOctet d)
      else tget none t j := by
  unfold captureWord captureOctet
  by_cases h1 : be.getLsbD 1 = true <;> by_cases h0 : be.getLsbD 0 = true <;>
    simp only [h1, h0, if_true, if_false, and_true, and_false, tget_tset, Bool.false_eq_true]
  split
  · next h => rw [if_neg (by omega)]
  · rfl

/-- With no buffer address known nothing is captured. -/
theorem captureWrite_unknown {e : Engine} {c : Chip} (h : (c.ctx e).buffer = none) (region : Region) (a : Nat)
    (be : BitVec 2) (d : Word) : captureWrite e region a be d c = c := by
  simp only [captureWrite, h]

/-- The word's place in the capture window of a buffer at `b`, modulo the memory's size (assumption 14). -/
def windowPlace (a b : Nat) : Nat := (a + Config.memoryWords - b) % Config.memoryWords

/-- A write that is no full-word write of the context's own word 3: header octets in the window, nothing else. -/
theorem captureWrite_plain {e : Engine} {b : Nat} {c : Chip} (h : (c.ctx e).buffer = some b) (a : Nat)
    (be : BitVec 2) (d : Word) : (captureWrite e .plain a be d c).ctx e =
      if windowPlace a b ≤ windowLast e then
        { c.ctx e with octets := captureWord (c.ctx e).octets (windowPlace a b) be d }
      else c.ctx e := by
  unfold windowPlace
  by_cases hk : (a + Config.memoryWords - b) % Config.memoryWords ≤ windowLast e <;> simp [captureWrite, h, hk]

/-- A full-word write of the context's own word 3 stores the received length (R38). -/
theorem captureWrite_length {e : Engine} {b off : Nat} {c : Chip} (h : (c.ctx e).buffer = some b) (ho : off % 8 = 3)
    (hi : (c.ctx e).index = some (off / 8)) (a : Nat) (d : Word) : ∃ o,
      (captureWrite e (.receive e off) a 3 d c).ctx e = { c.ctx e with octets := o, len := some d } := by
  refine ⟨if windowPlace a b ≤ windowLast e then captureWord (c.ctx e).octets (windowPlace a b) 3 d
    else (c.ctx e).octets, ?_⟩
  unfold windowPlace
  by_cases hk : (a + Config.memoryWords - b) % Config.memoryWords ≤ windowLast e <;>
    simp [captureWrite, h, ho, hi, fullWord, hk]

/-- An engine's write that cancels no slot and is no completion: captured, placed as made, and striking (R3, R38). -/
theorem engineWrite_captured {e : Engine} {a : BusAddr} {be : BitVec 2} {d : Word} {s : State} (hs : s.busFree)
    (hb : be ≠ 0) {region : Region} (hr : s.chip.classify a.toNat = region) (hc : cancelAt region a.toNat s.chip = s.chip)
    (hx : (classed s.chip (engineMaster e) true a be d).completion = none)
    (hu : region = .plain ∨ ∃ off, region = .receive e off) :
    ∃ t, exec (.headerCapture e a be d) s = .next t ∧ s.wordWritten t a be d ∧ s.writeKept t ∧
      t.chip = (strikeAt a.toNat s.chip).withFrm (captureWrite e region a.toNat be d s.chip).frm := by
  generalize hacc : classed s.chip (engineMaster e) true a be d = x at hx
  have hreg : x.region = region := by rw [← hacc, ← hr]; rfl
  have hshown : frameShown x s.chip = captureWrite e region a.toNat be d s.chip := by
    have hm : masterEngine x.master = some e := by rw [← hacc]; cases e <;> rfl
    simp only [frameShown, hm, hreg]
    rw [← hacc]
    exact congrArg (captureWrite e region a.toNat be d) hc
  have hg : (frameShown x s.chip).guards x = false := guards_of_region (by
    rw [hreg]
    rcases hu with h | ⟨off, h⟩ <;> simp [h])
  have hunits : ∀ c, unitsShown x c = c := fun c => by
    unfold unitsShown
    rw [hreg]
    rcases hu with h | ⟨off, h⟩
    · rw [h]
    · simp only [h, completionShown, hx]
  refine ⟨writeAccess x s, ?_, ?_⟩
  · subst hacc
    exact present_write hs _ a be d (noSlotFor_of_completion hx)
  · have hbe : x.be ≠ 0 := by rw [← hacc]; exact hb
    rw [writeAccess_placed hbe, hunits, rewritten_plain hx hg, hshown, captureWrite_frame, strikeAt_withFrm]
    subst hacc
    exact ⟨wordWritten_of_mem rfl, ⟨rfl, rfl, rfl⟩, rfl⟩

/-- Settles O16: each write is captured, placed and strikes; the contexts are `captureWrite`'s. -/
theorem engineWritesAreCaptured : Obligations.EngineWritesAreCaptured := by
  unfold Obligations.EngineWritesAreCaptured
  intro e a be d s hs hbe
  have hplain : s.chip.classify a.toNat = .plain → _ := fun hr =>
    engineWrite_captured (e := e) (d := d) hs hbe hr (cancelAt_outside _ _ (by simp))
      (completion_of_region (by simp [classed, hr])) (.inl rfl)
  have hctx : ∀ (region : Region) (r : Engine), ((strikeAt a.toNat s.chip).withFrm
      (captureWrite e region a.toNat be d s.chip).frm).ctx r = (captureWrite e region a.toNat be d s.chip).ctx r :=
    fun _ _ => Chip.ctx_of_frm rfl _
  have hheld : ∀ (region : Region) (r : Engine), ((strikeAt a.toNat s.chip).withFrm
      (captureWrite e region a.toNat be d s.chip).frm).held r = s.chip.held r :=
    fun _ r => (Chip.held_of_frm rfl r).trans (captureWrite_held _ _ _ _ _ _ _)
  refine ⟨fun hb hr => ?_, fun b hb => ?_⟩
  · obtain ⟨t, ht, hw, hk, hchip⟩ := hplain hr
    rw [captureWrite_unknown hb] at hchip
    refine ⟨t, ht, hw, hk, hchip.trans ?_⟩
    rw [← strikeAt_frm a.toNat s.chip]
    rfl
  · intro k last
    have hlast : last = windowLast e := by cases e <;> rfl
    refine ⟨fun hr => ?_, fun off hr ho hi h3 hslots => ?_⟩
    · obtain ⟨t, ht, hw, hk, hchip⟩ := hplain hr
      have hx : t.chip.ctx e = if k ≤ last then { s.chip.ctx e with octets := captureWord (s.chip.ctx e).octets k be d }
          else s.chip.ctx e := by
        rw [hchip, hctx, captureWrite_plain hb, hlast]
        rfl
      refine ⟨t, ht, hw, hk, by rw [hchip]; rfl, fun r => by rw [hchip, hheld], fun r hne => ?_, fun h => ?_, ?_,
        fun j h => ?_⟩
      · rw [hchip, hctx, captureWrite_ctx_of_ne hne]
      · rw [hx, if_neg (Nat.not_le.mpr h)]
      · rw [hx]
        split <;> rfl
      · rw [hx, if_pos h, tget_captureWord]
    · subst h3
      have hcancel : cancelAt (.receive e off) a.toNat s.chip = s.chip := by
        simp only [cancelAt, hslots, List.foldl_nil]
      have hx : (classed s.chip (engineMaster e) true a 3 d).completion = none :=
        Option.eq_none_iff_forall_ne_some.mpr fun ⟨r, i⟩ hx => by
          obtain ⟨off', hreg, -, -, -, ho', -⟩ := completion_region hx
          cases hr.symm.trans hreg
          omega
      obtain ⟨t, ht, hw, hk, hchip⟩ := engineWrite_captured hs hbe hr hcancel hx (.inr ⟨off, rfl⟩)
      obtain ⟨o, ho'⟩ := captureWrite_length hb ho hi a.toNat d
      refine ⟨t, ht, hw, hk, by rw [hchip]; rfl, fun r => by rw [hchip, hheld], fun r hne => ?_, ?_⟩
      · rw [hchip, hctx, captureWrite_ctx_of_ne hne]
      · rw [hchip, hctx, ho']

end Sys2Proof.Machine

/-! PROOF. Credits and charges of a trunk with no reaction in force (R98, R101, R106 to R108, R116), and stage one
(R40). -/

namespace Sys2Proof.Machine

/-! ### What is handed on when a connected trunk changes its state (R58, R123, R148) -/

/-- The queue and the waiting lists have grown by entries of the event unit only. -/
def Chip.onlyEvents (c d : Chip) : Prop := c.grew d ∧ ∀ o, o ≠ .event → c.formed d o []

theorem onlyEvents_of_path {c d : Chip} (h : d.path = c.path) : c.onlyEvents d :=
  ⟨grew_of_path h, fun o _ => formed_of_path h o⟩

theorem Chip.onlyEvents.trans {c d f : Chip} (h : c.onlyEvents d) (k : d.onlyEvents f) : c.onlyEvents f :=
  ⟨grew_trans h.1 k.1, fun o ho => formed_trans (h.2 o ho) (k.2 o ho)⟩

theorem recordEvent_onlyEvents (v : Event) (c : Chip) : c.onlyEvents (recordEvent v c) :=
  ⟨recordEvent_grew v c, fun _ ho => recordEvent_other ho v c⟩

/-- What the other units make of a trunk's change, once it is handed on: events, stations' presence, jobs and lines,
and no trunk's record, no held frame, nothing of the control unit. -/
def Chip.handedOn (c d : Chip) : Prop :=
  d.hlth = c.hlth ∧ d.ctl = c.ctl ∧ d.frm = c.frm ∧ c.onlyEvents d ∧
    ∀ n, ∃ p, d.station n = { c.station n with presence := p }

theorem handedOn_of_stn {c d : Chip} (hh : d.hlth = c.hlth) (hc : d.ctl = c.ctl) (hf : d.frm = c.frm)
    (he : c.onlyEvents d) (hs : d.stn = c.stn) : c.handedOn d :=
  ⟨hh, hc, hf, he, fun n => ⟨(c.station n).presence, Chip.station_of_stn hs n⟩⟩

theorem Chip.handedOn.refl (c : Chip) : c.handedOn c := handedOn_of_stn rfl rfl rfl (onlyEvents_of_path rfl) rfl

theorem Chip.handedOn.trans {c d f : Chip} (h : c.handedOn d) (k : d.handedOn f) : c.handedOn f := by
  obtain ⟨h1, h2, h3, h4, h5⟩ := h
  obtain ⟨k1, k2, k3, k4, k5⟩ := k
  refine ⟨k1.trans h1, k2.trans h2, k3.trans h3, h4.trans k4, fun n => ?_⟩
  obtain ⟨p, hp⟩ := h5 n
  obtain ⟨q, hq⟩ := k5 n
  exact ⟨q, by rw [hq, hp]⟩

theorem recordEvent_handedOn (v : Event) (c : Chip) : c.handedOn (recordEvent v c) :=
  handedOn_of_stn (recordEvent_hlth _ _) (recordEvent_ctl _ _) (recordEvent_frm _ _) (recordEvent_onlyEvents v c)
    (recordEvent_stn _ _)

theorem withRct_handedOn (v : ReactionUnit) (c : Chip) : c.handedOn (c.withRct v) :=
  handedOn_of_stn rfl rfl rfl (onlyEvents_of_path rfl) rfl

theorem setPresence_handedOn (n : Nat) (v : Presence) (c : Chip) : c.handedOn (setPresence n v c) := by
  unfold setPresence
  extract_lets e
  split
  · exact .refl c
  · refine Chip.handedOn.trans ?_ (recordEvent_handedOn _ _)
    refine ⟨rfl, rfl, rfl, onlyEvents_of_path rfl, fun k => ?_⟩
    rw [station_putStation]
    split
    · next h => exact ⟨v, by rw [h]⟩
    · exact ⟨(c.station k).presence, rfl⟩

theorem suspendJob_handedOn (t j : Nat) (c : Chip) : c.handedOn (suspendJob t j c) :=
  (handedOn_of_stn rfl rfl rfl (onlyEvents_of_path rfl) rfl : c.handedOn (c.putJob j _)).trans
    (recordEvent_handedOn _ _)

/-- An operation on the numbers of a list, each time one that is handed on or nothing. -/
theorem foldl_handedOn {α : Type} (l : List α) {f : Chip → α → Chip}
    (hf : ∀ (d : Chip) x, d.handedOn (f d x)) (c : Chip) :
    c.handedOn (l.foldl f c) :=
  List.foldlRecOn l f (.refl c) fun d hd x _ => hd.trans (hf d x)

/-- A connected trunk that stays connected or is cut: its stations may be cut, none comes back. -/
theorem stationsFollowTrunk_handedOn {old : TrunkState} (h : old.connected = true) (t : Nat) (new : TrunkState)
    (c : Chip) : c.handedOn (stationsFollowTrunk t old new c) := by
  have hold : old.cut = false := by
    revert h
    cases old <;> decide
  unfold stationsFollowTrunk
  split
  · refine foldl_handedOn _ (fun d n => ?_) c
    split
    · exact setPresence_handedOn _ _ d
    · exact .refl d
  · rw [hold]
    exact Chip.handedOn.refl c

/-- Its jobs may be suspended, none is resumed. -/
theorem jobsFollowTrunk_handedOn {old : TrunkState} (h : old.connected = true) (g : Give) (t : Nat) (new : TrunkState)
    (c : Chip) : c.handedOn (jobsFollowTrunk g t old new c) := by
  have hold : ¬ (old.cut = true ∨ old = .disabled) := by cases old <;> simp [TrunkState.connected, TrunkState.cut] at h ⊢
  unfold jobsFollowTrunk
  split
  · refine foldl_handedOn _ (fun d j => ?_) c
    split
    · exact suspendJob_handedOn _ _ d
    · exact .refl d
  · rw [if_neg fun hn => hold hn.2]
    exact .refl c

theorem noReactions_of_ctl {c d : Chip} (h : d.ctl = c.ctl) (hn : c.noReactions) : d.noReactions := by
  unfold Chip.noReactions
  rw [h]
  exact hn

theorem foldl_top {c : Chip} (hn : c.noReactions) (l : List Trigger) : l.foldl (fun c v => top v c) c = c :=
  List.foldl_fixed' (fun v => top_of_noReactions hn v) l

/-- A connected trunk's change handed on: no trigger fires. -/
theorem handOnTrunk_handedOn {old : TrunkState} (h : old.connected = true) (t : Nat) (cause : TrunkCause) {c : Chip}
    (hn : c.noReactions) : c.handedOn (handOnTrunk top t old cause c) := by
  unfold handOnTrunk
  extract_lets r d jobs f
  have hd : c.handedOn d := by
    show c.handedOn (if cause = .unitRecord then c else _)
    split
    · exact .refl c
    · exact stationsFollowTrunk_handedOn h t _ c
  have hj : d.handedOn jobs.2 := ((withRct_handedOn _ d).trans (jobsFollowTrunk_handedOn h _ t _ _)).trans
    (withRct_handedOn _ _)
  have hf : c.handedOn f := ((hd.trans hj).trans (recordEvent_handedOn _ _)).trans (withRct_handedOn _ _)
  have hnf : f.noReactions := noReactions_of_ctl hf.2.1 hn
  rw [top_of_noReactions hnf, foldl_top hnf]
  exact hf

/-! ### A trunk's record replaced -/

/-- Trunk `t` has record `r` now, and every other its own; what else changed is what that change hands on. -/
def Chip.trunkMoved (c d : Chip) (t : Nat) (r : Trunk) : Prop :=
  (c.withHlth d.hlth).handedOn d ∧ d.hlth = { c.hlth with trunks := d.hlth.trunks } ∧
    ∀ k, d.trunk k = if k = t then r else c.trunk k

theorem handedOn_withHlth {c d : Chip} (h : c.handedOn d) (v : HealthUnit) :
    (c.withHlth v).handedOn (d.withHlth v) := by
  obtain ⟨-, h2, h3, ⟨hg, hw⟩, h5⟩ := h
  exact ⟨rfl, h2, h3,
    ⟨grew_trans (grew_trans (grew_of_path rfl) hg) (grew_of_path rfl), fun o ho =>
      formed_trans (formed_trans (formed_of_path (c := c.withHlth v) rfl o) (hw o ho)) (formed_of_path rfl o)⟩, h5⟩

theorem trunkMoved_refl (t : Nat) (c : Chip) : c.trunkMoved c t (c.trunk t) :=
  ⟨.refl c, rfl, fun k => by split <;> simp_all⟩

/-- Two changes of one trunk: the second counts. -/
theorem Chip.trunkMoved.trans {c d f : Chip} {t : Nat} {r q : Trunk} (h : c.trunkMoved d t r) (k : d.trunkMoved f t q) :
    c.trunkMoved f t q := by
  obtain ⟨h1, h2, h3⟩ := h
  obtain ⟨k1, k2, k3⟩ := k
  refine ⟨(handedOn_withHlth h1 f.hlth).trans k1, ?_, fun n => ?_⟩
  · rw [k2, h2]
  · rw [k3, h3]
    split <;> rfl

theorem putTrunk_trunkMoved (t : Nat) (r : Trunk) (c : Chip) : c.trunkMoved (c.putTrunk t r) t r :=
  ⟨.refl _, rfl, fun k => trunk_putTrunk t k r c⟩

/-- A connected trunk's record replaced, and its change of state handed on. -/
theorem moveTrunk_trunkMoved {t : Nat} {c : Chip} (hc : (c.trunk t).state.connected = true) (hn : c.noReactions)
    (r : Trunk) (cause : TrunkCause) : c.trunkMoved (moveTrunk top t r cause c) t r := by
  obtain ⟨-, h2, h3⟩ := putTrunk_trunkMoved t r c
  unfold moveTrunk
  dsimp only
  split
  · exact putTrunk_trunkMoved t r c
  · have h := handOnTrunk_handedOn hc t cause (c := c.putTrunk t r) hn
    have hh := h.1
    refine ⟨?_, ?_, fun k => ?_⟩
    · rw [hh]
      exact h
    · rw [hh]
      exact h2
    · rw [Chip.trunk_of_hlth hh]
      exact h3 k

theorem Chip.trunkMoved.ctl {c d : Chip} {t : Nat} {r : Trunk} (h : c.trunkMoved d t r) : d.ctl = c.ctl := h.1.2.1

theorem Chip.trunkMoved.trunk {c d : Chip} {t : Nat} {r : Trunk} (h : c.trunkMoved d t r) : d.trunk t = r :=
  (h.2.2 t).trans (if_pos rfl)

/-! ### Charges and credits (R98, R101, R106 to R108, R116) -/

/-- The first crossing of a charge: the score raised, and WATCH when it comes to TW from below in IN_SERVICE (R106). -/
def Trunk.raised (h : HealthRec) (w : Nat) (r : Trunk) : Trunk :=
  if r.state = .inService ∧ r.score < h.tw ∧ h.tw ≤ (r.charged w).score then (r.charged w).intoWatch else r.charged w

/-- The crossings of R106 and R107, one after the other, are the record's change. -/
theorem raisedBy_eq (h : HealthRec) {w : Nat} (hw : w ≠ 0) (r : Trunk) : r.raisedBy h w =
    if h.ti ≤ (r.raised h w).score then (r.raised h w).intoIsolation h else r.raised h w := by
  have hs : (r.raised h w).score = min 65535 (r.score + w) := by
    unfold Trunk.raised
    split <;> rfl
  have hk : (r.raised h w).strikes = r.strikes := by
    unfold Trunk.raised
    split <;> rfl
  rw [Trunk.raisedBy, if_neg hw, hs]
  split
  · rw [Trunk.intoIsolation]
    simp only [hs, hk, satAdd]
    split <;> rfl
  · by_cases hi : r.state = .inService ∧ r.score < h.tw ∧ h.tw ≤ (r.charged w).score
    · rw [if_pos (by exact hi), Trunk.raised, if_pos hi]
      rfl
    · rw [if_neg (by exact hi), Trunk.raised, if_neg hi]
      rfl

theorem raised_connected (h : HealthRec) (w : Nat) {r : Trunk} (hr : r.state.connected = true) :
    (r.raised h w).state.connected = true := by
  unfold Trunk.raised
  split
  · rfl
  · exact hr

/-- A charge of a connected trunk (R101). -/
theorem chargeTrunk_trunkMoved {t : Nat} {c : Chip} (hc : (c.trunk t).state.connected = true) (hn : c.noReactions)
    (w : Nat) : c.trunkMoved (chargeTrunk top t w c) t ((c.trunk t).raisedBy c.ctl.health w) := by
  by_cases hw : w = 0
  · subst hw
    exact trunkMoved_refl t c
  rw [raisedBy_eq _ hw]
  unfold chargeTrunk
  rw [if_neg (by simp [hw, hc])]
  extract_lets h r' d now
  have hd : c.trunkMoved d t ((c.trunk t).raised h w) := by
    show c.trunkMoved (if _ then _ else _) t _
    unfold Trunk.raised
    split
    · exact moveTrunk_trunkMoved hc hn _ _
    · exact putTrunk_trunkMoved _ _ _
  have hnow : now = (c.trunk t).raised h w := hd.trunk
  have hcon : now.state.connected = true := hnow ▸ raised_connected h w hc
  rw [← hnow]
  by_cases hti : h.ti ≤ now.score
  · rw [if_pos ⟨hcon, hti⟩, if_pos hti]
    exact hd.trans (moveTrunk_trunkMoved hcon (noReactions_of_ctl hd.ctl hn) _ _)
  · rw [if_neg fun hh => hti hh.2, if_neg hti]
    exact hnow ▸ hd

/-- The good credit of a connected trunk (R98, R108). -/
theorem creditTrunk_trunkMoved {t : Nat} {c : Chip} (hc : (c.trunk t).state.connected = true) (hn : c.noReactions) :
    c.trunkMoved (creditTrunk top t c) t ((c.trunk t).scoredBy c.ctl.health 0) := by
  unfold creditTrunk lowerTrunk Trunk.scoredBy
  extract_lets r h down
  rw [if_pos rfl]
  by_cases hle : r.score ≤ down
  · have hd : down = r.score := Nat.le_antisymm (Nat.sub_le _ _) hle
    rw [if_pos hle, if_neg (fun hh => absurd hh.2.1 (Nat.not_lt.mpr hle)), hd]
    exact trunkMoved_refl t c
  · rw [if_neg hle]
    by_cases hw : r.state = .watch ∧ down ≤ h.tw / 2
    · rw [if_pos hw, if_pos ⟨hw.1, Nat.lt_of_not_le hle, hw.2⟩]
      exact moveTrunk_trunkMoved hc hn _ _
    · rw [if_neg hw, if_neg fun hh => hw ⟨hh.1, hh.2.2⟩]
      exact putTrunk_trunkMoved _ _ _

/-! ### Stage one (R40) -/

theorem weight_eq (h : HealthRec) {err : Nat} (he : err < 6) :
    h.weight err = [0, h.bodyCrc, h.short, h.long, h.code, h.reflection].getD err 0 := by
  have : err = 0 ∨ err = 1 ∨ err = 2 ∨ err = 3 ∨ err = 4 ∨ err = 5 := by omega
  rcases this with rfl | rfl | rfl | rfl | rfl | rfl <;> rfl

/-- Stage one: the record of a present and connected trunk scored, every other kept (R40, R97, R98). -/
theorem stageOne_scores (t err : Nat) {c : Chip} (hn : c.noReactions) :
    (stageOne top t err c).hlth.decayCount = c.hlth.decayCount ∧ ∀ k, (stageOne top t err c).trunk k =
      if k = t ∧ t < c.ctl.unit.nt ∧ (c.trunk t).state.connected = true ∧ err < 6 then
        (c.trunk t).scoredBy c.ctl.health err
      else c.trunk k := by
  unfold stageOne
  by_cases hup : c.trunkUp t = true ∧ err < 6
  · obtain ⟨hup, herr⟩ := hup
    have hup' : t < c.ctl.unit.nt ∧ (c.trunk t).state.connected = true := by simpa [Chip.trunkUp] using hup
    rw [if_neg (by simp [hup]; omega)]
    have hmoved : c.trunkMoved (if err = 0 then creditTrunk top t c else chargeTrunk top t (c.ctl.health.weight err) c) t
        ((c.trunk t).scoredBy c.ctl.health err) := by
      split
      · next h0 =>
        subst h0
        exact creditTrunk_trunkMoved hup'.2 hn
      · next h0 =>
        rw [Trunk.scoredBy, if_neg h0, ← weight_eq _ herr]
        exact chargeTrunk_trunkMoved hup'.2 hn _
    obtain ⟨-, hh, ht⟩ := hmoved
    refine ⟨by rw [hh], fun k => ?_⟩
    rw [ht]
    simp only [hup'.1, hup'.2, herr, and_true]
  · rw [if_pos (by by_contra h; exact hup (by simpa using h))]
    refine ⟨rfl, fun k => (if_neg fun hh => hup ⟨?_, hh.2.2.2⟩).symm⟩
    simp [Chip.trunkUp, hh.2.1, hh.2.2.1]

/-- Stage one is all that a completion taken shows the health unit. -/
theorem takeCompletion_stageOne (e : Engine) (i a : Nat) (w : Word) (c : Chip) : ∃ d : Chip, d.hlth = c.hlth ∧
    d.ctl = c.ctl ∧ (takeCompletion e i a w c).hlth = (completionStageOne e w d).hlth := by
  unfold takeCompletion
  extract_lets v p c1 c2
  have hd : ∀ d : Chip, (dropContext e i d).hlth = d.hlth ∧ (dropContext e i d).ctl = d.ctl := fun d => by
    rw [(dropContext_frame e i d).1]
    exact ⟨rfl, rfl⟩
  refine ⟨c2, (hd _).1.trans (putHeld_hlth ..), (hd _).2.trans (putHeld_ctl ..), ?_⟩
  rw [startEvaluation_frame]

/-- Settles O18: what a completion taken in RUN makes of the health unit is stage one's. -/
theorem stageOneScoresTheTrunk : Obligations.StageOneScoresTheTrunk := by
  unfold Obligations.StageOneScoresTheTrunk
  intro e a w off s hbus hreg hoff howner hslots hrun hlen hn
  have hx := completion_engine hreg hoff howner
  have hslot : s.chip.noSlotFor (classed s.chip (engineMaster e) true a 3 w) = false := by
    rw [← Bool.not_eq_true, noSlotFor_iff, hx]
    rintro ⟨r, k, hr, -, hl⟩
    cases hr
    exact absurd (hl.trans (List.length_filter_le _ _)) (Nat.not_le.mpr hlen)
  obtain ⟨f, -, -, -, hw⟩ := writeAccess_completion hx hslots
  have hmode : ((strikeAt a.toNat s.chip).withFrm f).ctl.mode = .run := (strikeAt_ctl_mode _ _).trans hrun
  rw [completed, if_pos (by exact hmode)] at hw
  obtain ⟨d, hdh, hdc, hd⟩ := takeCompletion_stageOne e (off / 8) a.toNat w ((strikeAt a.toNat s.chip).withFrm f)
  have hdh' : d.hlth = s.chip.hlth := hdh.trans (strikeAt_hlth _ _)
  have hunit : d.ctl.unit = s.chip.ctl.unit := by rw [hdc]; exact strikeAt_ctl_unit _ _
  have hhealth : d.ctl.health = s.chip.ctl.health := by rw [hdc]; exact strikeAt_ctl_health _ _
  refine ⟨_, (present_write hbus _ a 3 w hslot).trans (congrArg _ hw), ?_⟩
  suffices h : (completionStageOne e w d).hlth.decayCount = s.chip.hlth.decayCount ∧
      ∀ k, (completionStageOne e w d).trunk k = _ from
    ⟨(congrArg HealthUnit.decayCount hd).trans h.1, fun k => (Chip.trunk_of_hlth hd k).trans (h.2 k)⟩
  cases e with
  | coax =>
    obtain ⟨hcount, htrunk⟩ := stageOne_scores (bitsOf w 12 2) (coaxError w) (c := d)
      (by rw [Chip.noReactions, hunit]; exact hn)
    refine ⟨hcount.trans (by rw [hdh']), fun k => (htrunk k).trans ?_⟩
    rw [hunit, hhealth, Chip.trunk_of_hlth hdh', Chip.trunk_of_hlth hdh']
    by_cases hk : k = bitsOf w 12 2
    · subst hk
      simp only [true_and]
    · simp only [hk, false_and, and_false, if_false]
  | pair =>
    refine ⟨by rw [← hdh']; rfl, fun k => ?_⟩
    rw [if_neg (by simp)]
    exact Chip.trunk_of_hlth hdh' k

end Sys2Proof.Machine

/-! PROOF. Cancellation by a write that is no completion (R46, R47, R48). -/

namespace Sys2Proof.Machine

/-! ### Entries added, by their purposes -/

/-- The queue and the waiting lists have grown at their tails, by entries of purposes that `Q` allows. -/
def Chip.grewBy (Q : Purpose → Prop) (c d : Chip) : Prop :=
  (∃ l, d.path.queue = c.path.queue ++ l ∧ ∀ y ∈ l, Q y.purpose) ∧
    ∀ o, ∃ l, d.waiting o = c.waiting o ++ l ∧ ∀ y ∈ l, Q y.purpose

section GrewBy

variable {Q : Purpose → Prop} {c d f : Chip}

theorem grewBy_of_path (h : d.path = c.path) : c.grewBy Q d :=
  ⟨⟨[], by simp [h]⟩, fun o => ⟨[], by simp [Chip.waiting_of_path h]⟩⟩

theorem Chip.grewBy.trans (h : c.grewBy Q d) (k : d.grewBy Q f) : c.grewBy Q f := by
  have join : ∀ {x y z : List Entry}, (∃ l, y = x ++ l ∧ ∀ e ∈ l, Q e.purpose) → (∃ l, z = y ++ l ∧ ∀ e ∈ l, Q e.purpose) →
      ∃ l, z = x ++ l ∧ ∀ e ∈ l, Q e.purpose := by
    rintro x y z ⟨l, rfl, hl⟩ ⟨m, rfl, hm⟩
    exact ⟨l ++ m, List.append_assoc .., fun e he => (List.mem_append.mp he).elim (hl e) (hm e)⟩
  exact ⟨join h.1 k.1, fun o => join (h.2 o) (k.2 o)⟩

theorem takenEntry_purpose (c : Chip) (e : Entry) : (takenEntry c e).purpose = e.purpose := by
  rw [takenEntry_with]

theorem offer_grewBy {e : Entry} (he : Q e.purpose) (c : Chip) : c.grewBy Q (offer e c) := by
  have hone : ∀ y ∈ [e], Q y.purpose := by simpa using he
  rcases offer_cases e c with ⟨-, -, -, hj⟩ | hj
  · rw [hj]
    exact ⟨⟨[takenEntry c e], rfl, by simpa [takenEntry_purpose] using he⟩, fun o => ⟨[], by simp⟩⟩
  · rw [hj]
    refine ⟨⟨[], by simp⟩, fun o => ?_⟩
    by_cases ho : o = e.owner
    · subst ho
      exact ⟨[e], by simp, hone⟩
    · exact ⟨[], by simp [putWaiting_waiting_of_ne ho]⟩

theorem formEntry_grewBy {p : Purpose} (hp : Q p) (o : Owner) (w : Work) (c : Chip) : c.grewBy Q (formEntry o p w c) := by
  have h := offer_grewBy (Q := Q) (e := { id := c.path.serial, owner := o, purpose := p, work := w }) hp
    (c.withPath { c.path with serial := c.path.serial + 1 })
  exact ⟨h.1, fun r => by have := h.2 r; cases r <;> exact this⟩

theorem formRecord_grewBy (hr : Q .eventRecord) (k : EvClass) (n : Nat) (b : List Word) (c : Chip) :
    c.grewBy Q (formRecord k n b c) :=
  (formEntry_grewBy hr _ _ c).trans (grewBy_of_path rfl)

theorem recordEvent_grewBy (hr : Q .eventRecord) (hp : ∀ n l, Q (.producer n l)) (v : Event) (c : Chip) :
    c.grewBy Q (recordEvent v c) := by
  unfold recordEvent formEvent
  split
  · exact grewBy_of_path rfl
  · split
    · exact grewBy_of_path rfl
    · split
      · exact (formRecord_grewBy hr _ _ _ _).trans (formEntry_grewBy (hp _ _) _ _ _)
      · exact ((formRecord_grewBy hr _ _ _ _).trans (formRecord_grewBy hr _ _ _ _)).trans (formEntry_grewBy (hp _ _) _ _ _)

/-- What a frame wants fetched is its own (R43, R131). -/
theorem wants_ofSlot {u : UnitRec} {e : Engine} {v : Slot} {p : Purpose} {a n : Nat}
    (h : v.wants u e = some (p, a, n)) : Purpose.ofSlot e v.id p = true := by
  unfold Slot.wants at h
  split at h
  · exact nomatch h
  · split at h
    · cases h
      simp [Purpose.ofSlot]
    · split at h
      · cases h
        simp [Purpose.ofSlot]
      · split at h
        · cases h
          simp [Purpose.ofSlot]
        · exact nomatch h

theorem startEvaluation_grewBy {e : Engine} (hQ : ∀ v ∈ c.held e, ∀ p, Purpose.ofSlot e v.id p = true → Q p) :
    c.grewBy Q (startEvaluation e c) := by
  unfold startEvaluation
  split
  · exact grewBy_of_path rfl
  · next v hv =>
    split
    · exact grewBy_of_path rfl
    · split
      · exact grewBy_of_path rfl
      · next p a n hw =>
        exact (grewBy_of_path (putHeld_path ..)).trans
          (formEntry_grewBy (hQ v (Chip.atEvaluation_mem hv) p (wants_ofSlot hw)) _ _ _)

end GrewBy

/-! ### A slot cancelled (R46, R47) -/

/-- A place at evaluation leaves the names of the held list. -/
theorem startEvaluation_held_ids (e : Engine) (c : Chip) :
    ((startEvaluation e c).held e).map (·.id) = (c.held e).map (·.id) := by
  unfold startEvaluation
  split
  · rfl
  · split
    · rfl
    · split
      · rfl
      · rw [Chip.held_of_frm (formFetch_frm _ _ _ _ _), putHeld_held, if_pos rfl, putSlot_ids]

/-- The slot dropped and its entries withdrawn: what a cancellation starts with. -/
def Chip.without (e : Engine) (v : Slot) (c : Chip) : Chip := dropSlot e v.id (withdrawFrame (Purpose.ofSlot e v.id) c)

theorem cancelSlot_eq (e : Engine) (v : Slot) (c : Chip) : cancelSlot e v c =
    startEvaluation e (recordEvent (evVerdictDiscarded v.index e v.phase) (c.without e v)) := rfl

theorem without_path (e : Engine) (v : Slot) (c : Chip) :
    (c.without e v).path = (withdrawFrame (Purpose.ofSlot e v.id) c).path := putHeld_path ..

theorem without_held (e r : Engine) (v : Slot) (c : Chip) : (c.without e v).held r =
    if r = e then (c.held e).filter fun w => decide (w.id ≠ v.id) else c.held r := by
  rw [Chip.without, dropSlot, putHeld_held]
  rfl

/-- An entry that is neither the slot's own nor a reply. -/
def Purpose.outside (e : Engine) (id : Nat) (p : Purpose) : Prop := Purpose.ofSlot e id p = false ∧ ∀ l, p ≠ .reply l

/-- After the withdrawal a cancellation adds entries, none of them the slot's own and none a reply. -/
theorem cancelSlot_grewBy (e : Engine) (v : Slot) (c : Chip) :
    (c.without e v).grewBy (Purpose.outside e v.id) (cancelSlot e v c) := by
  refine (recordEvent_grewBy ⟨rfl, by simp⟩ (fun _ _ => ⟨rfl, by simp⟩) _ _).trans
    (startEvaluation_grewBy fun w hw p hp => ⟨?_, fun l hl => ?_⟩)
  · rw [Chip.held_of_frm (recordEvent_frm _ _), without_held, if_pos rfl] at hw
    rw [← Bool.not_eq_true]
    intro hv
    exact of_decide_eq_true (List.mem_filter.mp hw).2 (congrArg Prod.snd (ofSlot_unique hp hv))
  · subst hl
    exact nomatch hp

/-- The slot's own entries are gone (R47). -/
theorem cancelSlot_withdrawn (e : Engine) (v : Slot) (c : Chip) :
    ∀ y ∈ (cancelSlot e v c).path.queue ++ (cancelSlot e v c).path.waitFrame, Purpose.ofSlot e v.id y.purpose = false := by
  obtain ⟨⟨l, hq, hl⟩, hw⟩ := cancelSlot_grewBy e v c
  obtain ⟨m, hw, hm⟩ := hw .frame
  have hw' : (cancelSlot e v c).path.waitFrame = (c.without e v).path.waitFrame ++ m := hw
  intro y hy
  rw [hq, hw', without_path] at hy
  simp only [withdrawFrame, Chip.withPath_path, List.mem_append, List.mem_filter, Bool.not_eq_true'] at hy
  rcases hy with (h | h) | (h | h)
  · exact h.2
  · exact (hl y h).1
  · exact h.2
  · exact (hm y h).1

/-- The held lists after a cancellation: the slot freed, the others in their order. -/
theorem cancelSlot_held (e : Engine) (v : Slot) (c : Chip) :
    ((cancelSlot e v c).held e).map (·.id) = ((c.held e).map (·.id)).filter (· ≠ v.id) ∧
      ∀ r, r ≠ e → (cancelSlot e v c).held r = c.held r := by
  rw [cancelSlot_eq]
  refine ⟨?_, fun r hr => ?_⟩
  · rw [startEvaluation_held_ids, Chip.held_of_frm (recordEvent_frm _ _), without_held, if_pos rfl, List.filter_map]
    rfl
  · rw [startEvaluation_held_of_ne hr, Chip.held_of_frm (recordEvent_frm _ _), without_held, if_neg hr]

/-- VERDICT_DISCARDED with its words (R47, R175). -/
theorem logged_verdictDiscarded (i : Nat) (e : Engine) (ph : Phase) : (evVerdictDiscarded i e ph).logged =
    .plain .path 1 (wordNat i) (octetPair (engineCode e) ph.code) 0 :=
  congrArg (Logged.mk .path 1 (wordNat i) (octetPair (engineCode e) ph.code) · none) octetPair_zero

/-- An event without an address, as the event unit takes it (R175, R176, R178). -/
theorem logStep_plain (c : Chip) (k : EvClass) (n : Nat) (w1 w2 w3 : Word) : c.logStep c.evt (.plain k n w1 w2 w3) =
    if maskHas c.ctl.recordMask k = false then (c.evt, [])
    else if c.ringRoom = 0 then
      ({ c.evt with overflow := maskAdd c.evt.overflow k, lost := min 65535 (c.evt.lost + 1) }, [])
    else
      ({ c.evt with
          producer := (c.evt.producer + 1) % c.ctl.unit.ringSize, sequence := (c.evt.sequence + 1) % 256 },
        [.deposit c.recordAddr (unstruck [c.recordHead k n, w1, w2, w3]),
          .deposit (c.base + 24) (unstruck [wordNat ((c.evt.producer + 1) % c.ctl.unit.ringSize)])]) := by
  have hroom : (c.evt.consumer + 2 ^ (5 + c.ctl.unit.c) - c.evt.producer % 2 ^ (5 + c.ctl.unit.c) - 1) %
      2 ^ (5 + c.ctl.unit.c) = c.ringRoom := rfl
  simp only [Chip.logStep, Logged.plain, hroom, Nat.lt_one_iff]
  rfl

/-- What a cancellation does to the event unit is VERDICT_DISCARDED's. -/
theorem cancelSlot_event (e : Engine) (v : Slot) (c : Chip) :
    let x := c.logStep c.evt (.plain .path 1 (wordNat v.index) (octetPair (engineCode e) v.phase.code) 0)
    (cancelSlot e v c).evt = x.1 ∧ ∀ w ∈ x.2, w ∈ (cancelSlot e v c).worksOf .event := by
  intro x
  have hev : (c.without e v).evt = c.evt := putHeld_evt ..
  have hx : (c.without e v).logStep (c.without e v).evt (evVerdictDiscarded v.index e v.phase).logged = x := by
    rw [hev, logged_verdictDiscarded]
    show Chip.logStep _ _ _ = Chip.logStep _ _ _
    simp only [Chip.logStep, Chip.base, Chip.without, dropSlot, putHeld_ctl, putHeld_cab, withdrawFrame_ctl,
      withdrawFrame_cab]
  obtain ⟨h1, h2⟩ := recordEvent_logStep (evVerdictDiscarded v.index e v.phase) (c.without e v)
  rw [hx] at h1 h2
  have hev : (startEvaluation e (recordEvent (evVerdictDiscarded v.index e v.phase) (c.without e v))).evt =
      (recordEvent (evVerdictDiscarded v.index e v.phase) (c.without e v)).evt := by
    rw [startEvaluation_frame]
  rw [cancelSlot_eq]
  refine ⟨hev.trans h1, fun w hw => ?_⟩
  rw [(startEvaluation_formed e _).2.1 .event (by decide), h2]
  simp [hw]

/-! ### Strikes: replies, events and works -/

/-- A reply. -/
def Entry.isReply (e : Entry) : Bool :=
  match e.purpose with
  | .reply _ => true
  | _ => false

theorem isReply_strikeEntry (a : Nat) (e : Entry) : (strikeEntry a e).isReply = e.isReply := by
  unfold strikeEntry
  split <;> rfl

theorem strikeEntry_purpose (a : Nat) (e : Entry) : (strikeEntry a e).purpose = e.purpose := by
  unfold strikeEntry
  split <;> rfl

theorem foldl_depositStruck_ctl (l : List Entry) (c : Chip) : (l.foldl depositStruck c).ctl =
    if l.any Entry.isReply then { c.ctl with command := none } else c.ctl := by
  induction l generalizing c with
  | nil => rfl
  | cons e l ih =>
    have he : (depositStruck c e).ctl = if e.isReply then { c.ctl with command := none } else c.ctl := by
      unfold depositStruck Entry.isReply
      cases e.purpose <;> rfl
    rw [List.foldl_cons, ih, he, List.any_cons]
    cases e.isReply <;> simp

/-- A strike ends the command in progress when it withdraws a reply, and else leaves the control unit (R10, R26). -/
theorem strikeAt_ctl (a : Nat) (c : Chip) : (strikeAt a c).ctl =
    if c.path.queue.any fun e => (strikeEntry a e).allStruck && e.isReply then { c.ctl with command := none }
    else c.ctl := by
  have h := foldl_depositStruck_ctl ((c.path.queue.map (strikeEntry a)).filter Entry.allStruck)
    (c.withPath { c.path with queue := (c.path.queue.map (strikeEntry a)).filter fun e => !e.allStruck })
  rw [List.any_filter, List.any_map] at h
  simp only [Function.comp_def, isReply_strikeEntry] at h
  exact h

/-- A strike leaves the overflow set and the sequence number. -/
theorem strikeAt_evt (a : Nat) (c : Chip) :
    (strikeAt a c).evt.overflow = c.evt.overflow ∧ (strikeAt a c).evt.sequence = c.evt.sequence := by
  refine List.foldlRecOn (motive := fun d : Chip => d.evt.overflow = c.evt.overflow ∧ d.evt.sequence = c.evt.sequence)
    _ _ ⟨rfl, rfl⟩ fun d hd e _ => ?_
  unfold depositStruck
  split <;> exact hd

/-- A deposit that does not hold the word written, and has words left, stands after the strike as it stood. -/
theorem mem_worksOf_strikeAt {x a : Nat} {ws : List Word} {c : Chip} {o : Owner} (hw : ws ≠ [])
    (ha : ∀ k < ws.length, (a + k) % Config.memoryWords ≠ x) (h : .deposit a (unstruck ws) ∈ c.worksOf o) :
    .deposit a (unstruck ws) ∈ (strikeAt x c).worksOf o := by
  have hwait : (strikeAt x c).waiting o = c.waiting o := by
    cases o <;> simp only [Chip.waiting, strikeAt_path]
  rw [Chip.worksOf, List.mem_append, List.mem_map] at h ⊢
  refine h.imp ?_ (by rw [hwait]; exact id)
  rintro ⟨e, he, hwork⟩
  obtain ⟨hq, ho⟩ := List.mem_filter.mp he
  have hs : strikeEntry x e = e := strikeEntry_of_not_holding <| Entry.holds_eq_false_iff.mpr fun b us hb k hk hx => by
    obtain ⟨rfl, rfl⟩ := Work.deposit.inj (hwork.symm.trans hb)
    exact absurd hx (ha k (by simpa [unstruck] using hk))
  have hall : e.allStruck = false := by
    cases ws with
    | nil => exact absurd rfl hw
    | cons w ws => simp [Entry.allStruck, hwork, unstruck]
  refine ⟨e, List.mem_filter.mpr ⟨?_, ho⟩, hwork⟩
  rw [strikeAt_path]
  exact List.mem_filter.mpr ⟨hs ▸ List.mem_map_of_mem hq, by simp [hall]⟩

/-- After a strike every entry's purpose is one that stood before. -/
theorem purpose_strikeAt {x : Nat} {c : Chip} {P : Purpose → Prop} (h : ∀ y ∈ c.path.queue ++ c.path.waitFrame, P y.purpose) :
    ∀ y ∈ (strikeAt x c).path.queue ++ (strikeAt x c).path.waitFrame, P y.purpose := by
  intro y hy
  rw [strikeAt_path] at hy
  rcases List.mem_append.mp hy with hy | hy
  · obtain ⟨e, he, rfl⟩ := List.mem_map.mp (List.mem_of_mem_filter hy)
    rw [strikeEntry_purpose]
    exact h e (List.mem_append_left _ he)
  · exact h y (List.mem_append_right _ hy)

/-- A strike withdraws the same replies before and after a cancellation. -/
theorem strikeAt_cancelSlot_ctl (a : Nat) (e : Engine) (v : Slot) (c : Chip) :
    (strikeAt a (cancelSlot e v c)).ctl = (strikeAt a c).ctl := by
  obtain ⟨⟨l, hq, hl⟩, -⟩ := cancelSlot_grewBy e v c
  have hctl : (cancelSlot e v c).ctl = c.ctl := by rw [cancelSlot_frame]
  have hnew : (l.any fun y => (strikeEntry a y).allStruck && y.isReply) = false := by
    refine List.any_eq_false.mpr fun y hy => ?_
    have hr : y.isReply = false := by
      unfold Entry.isReply
      split
      · next hp => exact absurd hp ((hl y hy).2 _)
      · rfl
    simp [hr]
  have hold : ((c.without e v).path.queue.any fun y => (strikeEntry a y).allStruck && y.isReply) =
      c.path.queue.any fun y => (strikeEntry a y).allStruck && y.isReply := by
    rw [without_path]
    show (c.path.queue.filter fun y => !Purpose.ofSlot e v.id y.purpose).any _ = _
    rw [List.any_filter]
    congr 1
    funext y
    unfold Entry.isReply
    split
    · next hp => simp [hp, Purpose.ofSlot]
    · simp
  rw [strikeAt_ctl, strikeAt_ctl, hctl, hq, List.any_append, hnew, hold, Bool.or_false]

/-! ### The write that cancels (R46 to R48) -/

/-- What the write is shown to before memory: the cancellation, and for a receive engine its capture. -/
theorem frameShown_cancels {x : Access} {c : Chip} {e : Engine} {off : Nat} {v : Slot} (hr : x.region = .receive e off)
    (hs : c.slotsAt e x.addr = [v]) :
    ∃ f, frameShown x c = (cancelSlot e v c).withFrm f ∧ ∀ r, (frameShown x c).held r = (cancelSlot e v c).held r := by
  have hc : cancelAt x.region x.addr c = cancelSlot e v c := by
    simp only [cancelAt, hr, hs, List.foldl_cons, List.foldl_nil]
  unfold frameShown
  rw [hc]
  dsimp only
  split
  · exact ⟨_, captureWrite_frame .., fun r => captureWrite_held ..⟩
  · exact ⟨_, rfl, fun _ => rfl⟩

/-- A write in a receive ring that is no completion: the slot it falls in is cancelled, and it strikes (R46, R47). -/
theorem writeAccess_cancels {x : Access} {s : State} {e : Engine} {off : Nat} {v : Slot} (hb : x.be ≠ 0)
    (hr : x.region = .receive e off) (hx : x.completion = none) (hs : s.chip.slotsAt e x.addr = [v]) :
    ∃ f, (writeAccess x s).mem = writeMasked s.mem x.addr x.be x.data ∧
      (writeAccess x s).chip = (strikeAt x.addr (cancelSlot e v s.chip)).withFrm f ∧
      ∀ r, (writeAccess x s).chip.held r = (cancelSlot e v s.chip).held r := by
  obtain ⟨f, hf, hh⟩ := frameShown_cancels hr hs
  have hg : (frameShown x s.chip).guards x = false := guards_of_region (by simp [hr])
  have hw : writeAccess x s = (s.withMem (writeMasked s.mem x.addr x.be x.data)).withChip
      ((strikeAt x.addr (cancelSlot e v s.chip)).withFrm f) := by
    rw [writeAccess_placed hb, rewritten_plain hx hg, hf, strikeAt_withFrm]
    simp only [unitsShown, hr, completionShown, hx]
  rw [hw]
  refine ⟨f, rfl, rfl, fun r => ?_⟩
  rw [← hh, hf]
  exact Chip.held_of_frm rfl r

/-- Settles O19: the write is the cancellation and the strike, whose lemmas give the clauses. -/
theorem writesCancelHeldFrames : Obligations.WritesCancelHeldFrames := by
  unfold Obligations.WritesCancelHeldFrames
  intro m a be d e off v s hs hb hr hslots hno done
  have hreg : (classed s.chip m true a be d).region = .receive e off := hr
  have hx : (classed s.chip m true a be d).completion = none :=
    Option.eq_none_iff_forall_ne_some.mpr fun ⟨r, i⟩ hx => by
      obtain ⟨off', hreg', hm, -, hbe, ho, hown, -⟩ := completion_region hx
      cases hreg.symm.trans hreg'
      rcases hno with h | h | h | h
      · exact h hm
      · exact h hbe
      · exact h ho
      · exact h hown
  obtain ⟨f, hmem, hchip, hheld⟩ := writeAccess_cancels (s := s) hb hreg hx hslots
  set t := writeAccess (classed s.chip m true a be d) s with ht
  obtain ⟨hids, hother⟩ := cancelSlot_held e v s.chip
  obtain ⟨hevt, hworks⟩ := cancelSlot_event e v s.chip
  rw [logStep_plain] at hevt hworks
  obtain ⟨hover, hseq⟩ := strikeAt_evt a.toNat (cancelSlot e v s.chip)
  rw [hevt] at hover hseq
  have hcancel : (cancelSlot e v s.chip).stn = s.chip.stn ∧ (cancelSlot e v s.chip).hlth = s.chip.hlth ∧
      (cancelSlot e v s.chip).prt = s.chip.prt ∧ (cancelSlot e v s.chip).rct = s.chip.rct ∧
      (cancelSlot e v s.chip).cab = s.chip.cab := by
    rw [cancelSlot_frame]
    exact ⟨rfl, rfl, rfl, rfl, rfl⟩
  obtain ⟨hstn, hhlth, hprt, hrct, hcab⟩ := hcancel
  have hdone : done t := by
    refine ⟨wordWritten_of_mem hmem, writeAccess_outside _ _, ?_, ?_, ?_, ?_, ?_, ?_, ?_, fun r hr => ?_, ?_, ?_,
      fun hmask hroom => ⟨?_, fun haddr => ?_⟩⟩
    · rw [hchip]
      exact strikeAt_cancelSlot_ctl _ _ _ _
    · rw [hchip]
      exact (strikeAt_stn _ _).trans hstn
    · rw [hchip]
      exact (strikeAt_hlth _ _).trans hhlth
    · rw [hchip]
      exact (strikeAt_prt _ _).trans hprt
    · rw [hchip]
      exact (strikeAt_rct _ _).trans hrct
    · rw [hchip]
      exact (strikeAt_cab _ _).trans hcab
    · rw [hheld, hids]
    · rw [hheld, hother r hr]
    · rw [hchip]
      exact purpose_strikeAt (P := fun p => Purpose.ofSlot e v.id p = false) (cancelSlot_withdrawn e v s.chip)
    · rw [hchip]
      refine hover.trans ?_
      cases hmask : maskHas s.chip.ctl.recordMask .path
      · simp
      · by_cases hroom : s.chip.ringRoom = 0 <;> simp [hroom]
    · rw [hchip]
      refine hseq.trans ?_
      rw [if_neg (by simp [hmask]), if_neg (by omega)]
    · rw [hchip]
      rw [if_neg (by simp [hmask]), if_neg (by omega)] at hworks
      have hmem := mem_worksOf_strikeAt (x := a.toNat) (by simp) (by exact haddr) (hworks _ List.mem_cons_self)
      cases e <;> cases hp : v.phase <;> rw [hp] at hmem <;> exact hmem
  have hexec := present_write hs m a be d (noSlotFor_of_completion hx)
  exact ⟨fun _ => ⟨t, hexec, hdone⟩, fun _ => ⟨t, hexec, hdone⟩⟩

end Sys2Proof.Machine

/-! PROOF. Stage two's release of the frame at evaluation with its verdict (R44, R45). -/

namespace Sys2Proof.Machine

/-! ### The frame's two release deposits (R45) -/

theorem releaseFrame_framesFrom (e : Engine) (v : Slot) (r : Verdict) (c : Chip) :
    c.framesFrom (releaseFrame e v r c) :=
  ((putHeld_framesFrom ..).trans (formDeposit_framesFrom ..)).trans (formDeposit_framesFrom ..)

theorem releaseFrame_held (e x : Engine) (v : Slot) (r : Verdict) (c : Chip) :
    (releaseFrame e v r c).held x = if x = e then putSlot (c.held e) v.released else c.held x := by
  rw [releaseFrame, Chip.held_of_frm (formDeposit_frm ..), Chip.held_of_frm (formDeposit_frm ..), putHeld_held]
  rfl

theorem releaseFrame_worksOf (e : Engine) (v : Slot) (r : Verdict) (c : Chip) (o : Owner) :
    (releaseFrame e v r c).worksOf o = c.worksOf o ++
      if .frame = o then [.deposit (v.word0 + 4) (unstruck r.words),
        .deposit v.word0 (unstruck [wordNat (v.saved.toNat % 16384 + 16384)])] else [] := by
  have hput : ∀ l, (c.putHeld e l).worksOf o = c.worksOf o := fun l => by cases e <;> rfl
  rw [releaseFrame, formDeposit_worksOf, formDeposit_worksOf, hput, List.append_assoc]
  split <;> rfl

theorem releaseFrame_grew (e : Engine) (v : Slot) (r : Verdict) (c : Chip) : c.grew (releaseFrame e v r c) :=
  grew_trans (grew_trans (grew_of_path (putHeld_path ..)) (formDeposit_grew ..)) (formDeposit_grew ..)

theorem releasing_of_mem_putSlot {l : List Slot} {v w : Slot} (hw : w ∈ putSlot l v.released) (hid : w.id = v.id) :
    w.phase = .releasing := by
  obtain ⟨x, -, rfl⟩ := List.mem_map.mp hw
  split at hid
  · next h =>
    rw [if_pos h]
    rfl
  · next h => exact absurd hid h

/-- A place at evaluation adds to the frame unit's works at their tail. -/
theorem startEvaluation_prefix (e : Engine) (c : Chip) :
    c.worksOf .frame <+: (startEvaluation e c).worksOf .frame := by
  unfold startEvaluation
  split
  · exact List.prefix_rfl
  · split
    · exact List.prefix_rfl
    · split
      · exact List.prefix_rfl
      · rw [formFetch_worksOf]
        cases e <;> exact List.prefix_append ..

theorem startEvaluation_framesFrom (e : Engine) (c : Chip) : c.framesFrom (startEvaluation e c) := by
  obtain ⟨⟨-, -, hbus, hasking⟩, -⟩ := startEvaluation_formed e c
  exact ⟨startEvaluation_frame e c, hbus, hasking, fun r => startEvaluation_ctx e r c⟩

/-! ### Stage two, once the verdict is found (R42, R44, R45) -/

/-- What the verdict's finding may change: not the control unit, nor the frame unit, and the queue by events only. -/
def Chip.seen (c d : Chip) : Prop := d.ctl = c.ctl ∧ d.frm = c.frm ∧ c.onlyEvents d

theorem Chip.seen.refl (c : Chip) : c.seen c := ⟨rfl, rfl, onlyEvents_of_path rfl⟩

theorem Chip.seen.trans {c d f : Chip} (h : c.seen d) (k : d.seen f) : c.seen f :=
  ⟨k.1.trans h.1, k.2.1.trans h.2.1, h.2.2.trans k.2.2⟩

theorem Chip.trunkMoved.seen {c d : Chip} {t : Nat} {r : Trunk} (h : c.trunkMoved d t r) : c.seen d := by
  obtain ⟨⟨-, hctl, hfrm, hevents, -⟩, -, -⟩ := h
  exact ⟨hctl, hfrm, (onlyEvents_of_path rfl).trans hevents⟩

/-- The trunk records, where a trunk has been charged. -/
theorem Chip.trunkMoved.charges {c d f : Chip} {t w : Nat} {h : HealthRec} (hm : c.trunkMoved d t ((c.trunk t).raisedBy h w))
    (hf : f.hlth = d.hlth) (k : Nat) : f.trunk k = if k = t then (c.trunk k).raisedBy h w else c.trunk k := by
  obtain ⟨-, -, htrunk⟩ := hm
  rw [Chip.trunk_of_hlth hf, htrunk]
  split
  · next hk => rw [hk]
  · rfl

/-- Stage two does nothing outside RUN, with no frame at evaluation, or with one that lacks something (R42). -/
theorem stageTwo_idle {e : Engine} {c : Chip} (h : c.ctl.mode ≠ .run ∨ c.atEvaluation e = none ∨
    ∀ v, c.atEvaluation e = some v → v.ready c.ctl.unit e = false) : stageTwo e c = c := by
  unfold stageTwo
  split
  · rfl
  · next v hv =>
    refine if_neg fun ⟨hrun, hready⟩ => ?_
    rcases h with h | h | h
    · exact h hrun
    · exact nomatch h.symm.trans hv
    · exact nomatch (h v hv).symm.trans hready

/-- Stage two of a frame at evaluation with all it needs. -/
theorem stageTwo_evaluating {e : Engine} {v : Slot} {c : Chip} (h : c.evaluating e v) : stageTwo e c =
    startEvaluation e (releaseFrame e v (evaluate top e v c).1 (evaluate top e v c).2) := by
  obtain ⟨hrun, hv, hready, -⟩ := h
  simp only [stageTwo, hv]
  exact if_pos ⟨hrun, hready⟩

/-- The frame is released with the verdict found, and nothing else is done after that (R44, R45). -/
theorem stageTwo_released {s : State} {e : Engine} {v : Slot} {r : Verdict} {d : Chip} (h : s.chip.evaluating e v)
    (hr : evaluate top e v s.chip = (r, d)) (hd : s.chip.seen d) :
    ∃ t, exec (.stageTwo e) s = .next t ∧ s.released t e v (unstruck r.words) ∧
      t.chip = { d with path := t.chip.path, frm := t.chip.frm } ∧ ∀ o, o ≠ .frame → d.formed t.chip o [] := by
  have hnames : ((d.held e).map (·.id)).Nodup := by
    obtain ⟨-, -, -, hnames, -⟩ := h
    rw [Chip.held_of_frm hd.2.1]
    exact (hnames e).1
  obtain ⟨hctl, hfrm, hgrew, hforms⟩ := hd
  set f := releaseFrame e v r d with hf
  have hchip : stageTwo e s.chip = startEvaluation e f := by rw [stageTwo_evaluating h, hr]
  have hheld : f.held e = putSlot (d.held e) v.released := (releaseFrame_held ..).trans (if_pos rfl)
  have hids : (f.held e).map (·.id) = (d.held e).map (·.id) := by rw [hheld, putSlot_ids]
  have hfrom : d.framesFrom (startEvaluation e f) :=
    (releaseFrame_framesFrom e v r d).trans (startEvaluation_framesFrom e f)
  obtain ⟨hstart, hother, hlen⟩ := startEvaluation_formed e f
  have hforms' : ∀ o, o ≠ .frame → d.formed (startEvaluation e f) o [] := fun o ho =>
    formed_trans (l := []) (by rw [Chip.formed, hf, releaseFrame_worksOf, if_neg (Ne.symm ho)]) (hother o ho)
  have hworks : f.worksOf .frame = s.chip.worksOf .frame ++ [.deposit (v.word0 + 4) (unstruck r.words),
      .deposit v.word0 (unstruck [wordNat (v.saved.toNat % 16384 + 16384)])] := by
    rw [hf, releaseFrame_worksOf, if_pos rfl, hforms .frame (by decide), List.append_nil]
  refine ⟨s.withChip (startEvaluation e f), by rw [← hchip]; rfl, ⟨⟨rfl, rfl, rfl, rfl⟩, ?_, ?_, ?_, fun x hx => ?_,
    fun w hw hid => ?_, ?_, ?_, ?_⟩, hfrom.1, hforms'⟩
  · exact grew_trans hgrew (grew_trans (releaseFrame_grew ..) hstart)
  · show (startEvaluation e f).ctl = s.chip.ctl
    rw [hfrom.1]
    exact hctl
  · show ((startEvaluation e f).held e).map (·.id) = _
    rw [startEvaluation_held_ids, hids, Chip.held_of_frm hfrm]
  · show (startEvaluation e f).held x = _
    rw [startEvaluation_held_of_ne hx, hf, releaseFrame_held, if_neg hx, Chip.held_of_frm hfrm]
  · obtain ⟨g, hg⟩ := startEvaluation_held (hids ▸ hnames)
    have hw' : w ∈ (startEvaluation e f).held e := hw
    rw [hg, hheld] at hw'
    obtain ⟨x, hx, rfl⟩ := List.mem_map.mp hw'
    exact releasing_of_mem_putSlot (w := x) (v := v) hx hid
  · rw [← hworks]
    exact startEvaluation_prefix e f
  · refine hlen.trans ?_
    rw [hworks, List.length_append]
    exact Nat.le_refl _
  · exact formed_trans (l := []) (hforms .control (by decide)) (hforms' .control (by decide))

/-- A verdict found with nothing changed is shown to no unit (R41). -/
theorem stageTwo_unseen {s : State} {e : Engine} {v : Slot} {r : Verdict} (h : s.chip.evaluating e v)
    (hr : evaluate top e v s.chip = (r, s.chip)) :
    ∃ t, exec (.stageTwo e) s = .next t ∧ s.released t e v (unstruck r.words) ∧
      t.chip = { s.chip with path := t.chip.path, frm := t.chip.frm } ∧
      s.chip.logs t.chip [] ∧ s.chip.formed t.chip .print [] := by
  obtain ⟨t, ht, hrel, hchip, hforms⟩ := stageTwo_released h hr (.refl _)
  exact ⟨t, ht, hrel, hchip, ⟨by rw [hchip]; rfl, hforms .event (by decide)⟩, hforms .print (by decide)⟩

/-! ### Events, composed (R176, R178) -/

theorem log_append (c : Chip) (v : EventUnit) (l m : List Logged) : c.log v (l ++ m) =
    ((c.log (c.log v l).1 m).1, (c.log v l).2 ++ (c.log (c.log v l).1 m).2) := by
  induction l generalizing v with
  | nil => rfl
  | cons x l ih => simp only [List.cons_append, Chip.log, ih, List.append_assoc]

/-- What events make of the event unit goes by the control area's address and the control unit. -/
theorem log_congr {c d : Chip} (hb : d.base = c.base) (hc : d.ctl = c.ctl) (v : EventUnit) (l : List Logged) :
    d.log v l = c.log v l := by
  have hstep : ∀ v x, d.logStep v x = c.logStep v x := fun v x => by simp only [Chip.logStep, hb, hc]
  induction l generalizing v with
  | nil => rfl
  | cons x l ih => simp only [Chip.log, hstep, ih]

theorem logs_trans {c d f : Chip} {l m : List Logged} (hb : d.base = c.base) (hc : d.ctl = c.ctl) (h : c.logs d l)
    (k : d.logs f m) : c.logs f (l ++ m) := by
  obtain ⟨h1, h2⟩ := h
  obtain ⟨k1, k2⟩ := k
  rw [log_congr hb hc, h1] at k1 k2
  rw [Chip.logs, log_append]
  exact ⟨k1, formed_trans h2 k2⟩

/-! ### One station's entry replaced, with events -/

/-- The table changed in entry `n` at most, which is `e` now, and the events `l` handed on; nothing else. -/
def Chip.entryMoved (c d : Chip) (n : Nat) (e : Station) (l : List Logged) : Prop :=
  d = { c with path := d.path, evt := d.evt, stn := { c.stn with table := d.stn.table } } ∧ c.onlyEvents d ∧
    c.logs d l ∧ ∀ m, d.station m = if m = n then e else c.station m

section EntryMoved

variable {c d f : Chip} {n : Nat} {e e' : Station} {l m : List Logged}

theorem entryMoved_refl (n : Nat) (c : Chip) : c.entryMoved c n (c.station n) [] :=
  ⟨rfl, onlyEvents_of_path rfl, ⟨rfl, formed_of_path rfl _⟩, fun k => by split <;> simp_all⟩

theorem putStation_entryMoved (n : Nat) (e : Station) (c : Chip) : c.entryMoved (c.putStation n e) n e [] :=
  ⟨rfl, onlyEvents_of_path rfl, ⟨rfl, formed_of_path rfl _⟩, fun k => station_putStation n k e c⟩

theorem recordEvent_entryMoved (n : Nat) (v : Event) (c : Chip) :
    c.entryMoved (recordEvent v c) n (c.station n) [v.logged] := by
  obtain ⟨-, hlogs, -⟩ := recordEvent_only v c
  refine ⟨?_, recordEvent_onlyEvents v c, hlogs, fun k => ?_⟩
  · apply Chip.eq_of_units <;> simp
  · rw [Chip.station_of_stn (recordEvent_stn _ _)]
    split <;> simp_all

theorem Chip.entryMoved.ctl (h : c.entryMoved d n e l) : d.ctl = c.ctl := by rw [h.1]

theorem Chip.entryMoved.hlth (h : c.entryMoved d n e l) : d.hlth = c.hlth := by rw [h.1]

theorem Chip.entryMoved.self (h : c.entryMoved d n e l) : d.station n = e := (h.2.2.2 n).trans (if_pos rfl)

theorem Chip.entryMoved.seen (h : c.entryMoved d n e l) : c.seen d := ⟨h.ctl, by rw [h.1], h.2.1⟩

/-- Two changes of one entry: the second counts, the events of both. -/
theorem Chip.entryMoved.trans (h : c.entryMoved d n e l) (k : d.entryMoved f n e' m) :
    c.entryMoved f n e' (l ++ m) := by
  have hb : d.base = c.base := by rw [h.1]; rfl
  have hc := h.ctl
  obtain ⟨h1, h2, h3, h4⟩ := h
  obtain ⟨k1, k2, k3, k4⟩ := k
  refine ⟨?_, h2.trans k2, logs_trans hb hc h3 k3, fun x => ?_⟩
  · conv_lhs => rw [k1, h1]
  · rw [k4, h4]
    split <;> rfl

/-- An entry placed, then an event. -/
theorem putStation_recordEvent_entryMoved (n : Nat) (e : Station) (v : Event) (c : Chip) :
    c.entryMoved (recordEvent v (c.putStation n e)) n e [v.logged] := by
  have h := (putStation_entryMoved n e c).trans (recordEvent_entryMoved n v _)
  rwa [(putStation_entryMoved n e c).self] at h

end EntryMoved

end Sys2Proof.Machine

/-! PROOF. What stage two finds: the header's numbers, the verdict's words, hearings and charges of an entry with no
open job (R34 to R36, R52 to R55, R81 to R91, R100). -/

namespace Sys2Proof.Machine

/-! ### The header's numbers (R34 to R36) -/

theorem headerGood_iff (e : Engine) (v : Slot) : v.headerGood e = true ↔ v.sumGood (headerAt e) := by
  have h255 : (255 : Octet).toNat = 255 := rfl
  simp only [Slot.headerGood, decide_eq_true_eq, ← BitVec.toNat_inj, BitVec.toNat_add, h255, Nat.mod_add_mod]
  exact Iff.rfl

theorem payloadLen_eq (e : Engine) (v : Slot) :
    v.payloadLen e = v.num (headerAt e + 4) * 256 + v.num (headerAt e + 5) := wordOf_toNat _ _

theorem mismatch_iff (v : Slot) : v.mismatch = true ↔ v.length ≠ 8 + (v.num 4 * 256 + v.num 5) := by
  rw [Slot.mismatch, decide_eq_true_eq, payloadLen_eq]
  rfl

theorem malformed_iff (v : Slot) : v.malformed = true ↔
    v.length ≠ 8 + (v.num 4 * 256 + v.num 5) ∨ v.num 1 = 0 ∨ v.num 1 = 255 ∨ v.num 0 = 255 := by
  simp only [Slot.malformed, Bool.or_eq_true, mismatch_iff, decide_eq_true_eq, or_assoc]
  rfl

theorem link_iff (u : UnitRec) (v : Slot) : v.link u = true ↔
    u.linkType ≠ 0 ∧ v.num 12 * 256 + v.num 13 = u.linkType.toNat := by
  simp only [Slot.link, Bool.and_eq_true, decide_eq_true_eq, ← BitVec.toNat_inj (y := u.linkType), wordOf_toNat,
    Slot.num]

theorem printKind_iff (k : Nat) : printKind k = true ↔ 16 ≤ k ∧ k ≤ 19 := by
  simp [printKind]

theorem linkFault_check {v : Slot} (h : ¬ v.sumGood 14) : v.linkFault = some 1 :=
  if_pos (by simpa using fun k => h ((headerGood_iff .pair v).mp k))

/-- With a good header, the length alone can be at fault (R36). -/
theorem linkFault_of_good {v : Slot} (h : v.sumGood 14) :
    v.linkFault = if v.length < 22 + (v.num 18 * 256 + v.num 19) then some 3 else none := by
  rw [Slot.linkFault, (headerGood_iff .pair v).mpr h, payloadLen_eq]
  rfl

/-! ### The destination address M (R67, R88) -/

theorem inAliasBlock_iff (u : UnitRec) (v : Slot) : u.inAliasBlock v.destAddr = true ↔ v.toAlias u := by
  simp only [UnitRec.inAliasBlock, decide_eq_true_eq, Slot.toAlias]

/-- The all-ones address is read by the embedded destination (assumption 29). -/
theorem readDest_ones {u : UnitRec} {m : NewAddr} (h : m = allOnes) (k : Nat) :
    readDest u m k = if k = 255 then none else some (k, decide (u.u ≠ 0) && decide (k = u.u)) :=
  if_pos h

/-- Another address is read by the block of aliases (R67, R88). -/
theorem readDest_other {u : UnitRec} {m : NewAddr} (h : m ≠ allOnes) (k : Nat) : readDest u m k =
    if u.inAliasBlock m then
      if aliasOctet m = 0 then some (u.u, true)
      else if aliasOctet m = 255 then none
      else some (aliasOctet m, decide (u.u ≠ 0) && decide (aliasOctet m = u.u))
    else none :=
  if_neg h

theorem readDest_nowhere {u : UnitRec} {v : Slot} (h : v.destinedNowhere u) :
    readDest u v.destAddr (v.dst .pair) = none := by
  unfold Slot.destinedNowhere at h
  split at h
  · next hm =>
    rw [readDest_ones hm]
    exact if_pos h
  · next hm =>
    rw [readDest_other hm]
    split
    · next ha =>
      have hoct : aliasOctet v.destAddr = 255 := h.resolve_left fun hn => hn ((inAliasBlock_iff u v).mp ha)
      rw [hoct]
      rfl
    · rfl

theorem readDest_destined {u : UnitRec} {v : Slot} {a : Nat} {toUnit : Bool} (h : v.destined u a toUnit) :
    readDest u v.destAddr (v.dst .pair) = some (a, toUnit) := by
  rcases h with ⟨halias, hzero, rfl, rfl⟩ | ⟨ha, rfl, hm⟩
  · have hones : v.destAddr ≠ allOnes := fun h => by rw [h] at hzero; exact absurd hzero (by decide)
    rw [readDest_other hones, if_pos ((inAliasBlock_iff u v).mpr halias)]
    exact if_pos hzero
  · have hstation : (if a = 255 then none else some (a, decide (u.u ≠ 0) && decide (a = u.u))) =
        some (a, decide (u.u ≠ 0 ∧ a = u.u)) := by
      rw [if_neg (by omega), Bool.decide_and]
    split at hm
    · next hones =>
      have hd : v.dst .pair = a := hm
      rw [readDest_ones hones, hd, hstation]
    · next hones =>
      obtain ⟨halias, hoct, hzero⟩ := hm
      have hoct' : aliasOctet v.destAddr = a := hoct
      rw [readDest_other hones, if_pos ((inAliasBlock_iff u v).mpr halias), hoct', if_neg hzero, hstation]

/-! ### The verdict's words and masks (section 3.7, R86) -/

theorem unstruck_words (code src dst detail : Nat) {mask : Nat} (hm : mask < 16) :
    unstruck (Verdict.words { code := code, src := src, dst := dst, detail := detail, mask := mask }) =
      verdictOf code src dst detail mask := by
  simp [Verdict.words, verdictOf, bitNat, Nat.mod_eq_of_lt hm]
  rfl

/-- A verdict whose mask takes in the pair side. -/
theorem unstruck_words_pair (code src dst detail : Nat) {mask : Nat} (hm : mask < 16) :
    unstruck (Verdict.words { code := code, src := src, dst := dst, detail := detail, mask := mask, pairFlag := true }) =
      verdictOf code src dst detail (mask + 16) := by
  simp [Verdict.words, verdictOf, bitNat, Nat.mod_eq_of_lt hm]
  rfl

/-- A verdict without a mask. -/
theorem unstruck_words_plain (code src dst detail : Nat) :
    unstruck (Verdict.words { code := code, src := src, dst := dst, detail := detail }) =
      verdictOf code src dst detail 0 :=
  unstruck_words code src dst detail (by decide)

/-- A TO_PROXY verdict (section 3.7). -/
theorem unstruck_words_addr (code src : Nat) (x : NewAddr) :
    unstruck (Verdict.words { code := code, src := src, addr := some x }) =
      unstruck (octetPair code src :: addrWords x) := rfl

theorem trunkUp_eq (c : Chip) (k : Nat) : c.trunkUp k = decide (c.up k) := by
  simp [Chip.trunkUp]

theorem trunkMask_eq (c : Chip) (f : Nat → Bool) : c.trunkMask f =
    ((List.range 4).map fun k => if decide (c.up k) && f k then 2 ^ k else 0).sum := by
  simp only [Chip.trunkMask, trunkUp_eq, bitNat, ite_mul, one_mul, zero_mul]

theorem broadcastMask_eq (c : Chip) (t : Nat) : c.broadcastMask t =
    ((List.range 4).map fun k => if decide (c.up k) && decide (k ≠ t) then 2 ^ k else 0).sum :=
  trunkMask_eq c _

theorem fullMask_eq (c : Chip) : c.fullMask =
    ((List.range 4).map fun k => if decide (c.up k) then 2 ^ k else 0).sum := by
  rw [Chip.fullMask, trunkMask_eq]
  simp only [Bool.and_true]

theorem trunkMask_lt (c : Chip) (f : Nat → Bool) : c.trunkMask f < 16 := by
  have hb : ∀ b : Bool, bitNat b ≤ 1 := by decide
  have h0 := hb (c.trunkUp 0 && f 0)
  have h1 := hb (c.trunkUp 1 && f 1)
  have h2 := hb (c.trunkUp 2 && f 2)
  have h3 := hb (c.trunkUp 3 && f 3)
  simp only [Chip.trunkMask, List.range, List.range.loop, List.map_cons, List.map_nil, List.sum_cons, List.sum_nil]
  omega

theorem not_cut_of_up {c : Chip} {k : Nat} (h : c.up k) : (c.trunk k).state.cut = false := by
  have hc := h.2
  revert hc
  cases (c.trunk k).state <;> decide

theorem trunkGone_iff (c : Chip) (k : Nat) :
    c.trunkGone k = true ↔ c.ctl.unit.nt ≤ k ∨ (c.trunk k).state.cut = true := by
  simp [Chip.trunkGone]

theorem not_trunkGone_of_up {c : Chip} {k : Nat} (h : c.up k) : c.trunkGone k = false := by
  rw [Chip.trunkGone, not_cut_of_up h, decide_eq_false (Nat.not_le.mpr h.1)]
  rfl

/-! ### Verdicts go by what they read of the table and the trunks -/

/-- Parts alike in all that a verdict reads: the control and health units, and of each entry its kind, its trunk,
its standing and its address. -/
def Chip.standsAs (c d : Chip) : Prop :=
  d.ctl = c.ctl ∧ d.hlth = c.hlth ∧ (∀ m, (d.station m).kind = (c.station m).kind) ∧
    (∀ m, (d.station m).trunk = (c.station m).trunk) ∧
    (∀ m, (d.station m).quarantined = (c.station m).quarantined) ∧ ∀ m, (d.station m).addr = (c.station m).addr

section StandsAs

variable {c d : Chip}

theorem Chip.standsAs.trunkMask (h : c.standsAs d) (f : Nat → Bool) : d.trunkMask f = c.trunkMask f := by
  simp only [Chip.trunkMask, Chip.trunkUp, h.1, Chip.trunk_of_hlth h.2.1]

theorem Chip.standsAs.trunkGone (h : c.standsAs d) (k : Nat) : d.trunkGone k = c.trunkGone k := by
  simp only [Chip.trunkGone, h.1, Chip.trunk_of_hlth h.2.1]

theorem Chip.standsAs.coaxRest (h : c.standsAs d) (heard : Heard) (v : Slot) : coaxRest d heard v = coaxRest c heard v := by
  have hmask := h.trunkMask
  have hgone := h.trunkGone
  obtain ⟨hctl, -, hkind, htrunk, hq, haddr⟩ := h
  simp only [Machine.coaxRest, coaxToEntry, Chip.broadcastMask, hmask, hgone, hctl, hkind, htrunk, hq, haddr]

theorem Chip.standsAs.pairRest (h : c.standsAs d) (p a : Nat) (toUnit : Bool) (v : Slot) :
    pairRest d p a toUnit v = pairRest c p a toUnit v := by
  have hmask := h.trunkMask
  have hgone := h.trunkGone
  obtain ⟨-, -, hkind, htrunk, hq, -⟩ := h
  simp only [Machine.pairRest, pairToEntry, Chip.fullMask, hmask, hgone, hkind, htrunk, hq]

theorem Chip.entryMoved.standsAs {n : Nat} {e : Station} {l : List Logged} (h : c.entryMoved d n e l)
    (hk : e.kind = (c.station n).kind) (ht : e.trunk = (c.station n).trunk)
    (hq : e.quarantined = (c.station n).quarantined) (ha : e.addr = (c.station n).addr) : c.standsAs d := by
  have hread : ∀ {α : Type} (r : Station → α), r e = r (c.station n) → ∀ m, r (d.station m) = r (c.station m) := by
    obtain ⟨-, -, -, hst⟩ := h
    intro _ r hr m
    rw [hst]
    split
    · next hm => rw [hm, hr]
    · rfl
  exact ⟨h.ctl, h.hlth, hread (·.kind) hk, hread (·.trunk) ht, hread (·.quarantined) hq, hread (·.addr) ha⟩

end StandsAs

/-! ### A hearing of an entry with no open job (R52 to R55) -/

theorem noticeHearing_none {n : Nat} {c : Chip} (h : (c.station n).openJob = none) (g : Give) :
    noticeHearing g n c = c :=
  if_neg (by simp [h])

theorem abandonOpen_none {n : Nat} {c : Chip} (h : (c.station n).openJob = none) (g : Give) (r : AbandonReason) :
    abandonOpen g n r c = c := by
  unfold abandonOpen
  rw [h]

theorem logged_stationPresence (n : Nat) (old new : Presence) :
    (evStationPresence n old new).logged = presenceEvent n old new :=
  congrArg (Logged.plain .station 5 (wordNat n) (octetPair old.code new.code)) octetPair_zero

theorem logged_stationQuarantined (n cause score : Nat) : (evStationQuarantined n cause score).logged =
    .plain .station 10 (wordNat n) (octetPair cause score) 0 :=
  congrArg (Logged.plain .station 10 (wordNat n) (octetPair cause score)) octetPair_zero

/-- An entry heard at home at `now` (R54). -/
def Station.heardHome (now : BitVec 32) (e : Station) : Station :=
  { e with age := 0, homeHearing := now, presence := .active }

/-- A hearing on the home trunk (R54). -/
theorem hearHome_entryMoved {n : Nat} {c : Chip} (ho : (c.station n).openJob = none) (g : Give) :
    c.entryMoved (hearHome g n c) n ((c.station n).heardHome c.stn.clock)
      (if (c.station n).presence = .silent then [presenceEvent n .silent .active] else []) := by
  unfold hearHome
  extract_lets e d f
  have hf : c.entryMoved f n (e.heardHome c.stn.clock)
      (if e.presence = .silent then [presenceEvent n .silent .active] else []) := by
    show c.entryMoved (if _ then _ else _) _ _ _
    split
    · rw [← logged_stationPresence]
      exact putStation_recordEvent_entryMoved ..
    · exact putStation_entryMoved ..
  rw [noticeHearing_none (by rw [hf.self]; exact ho)]
  exact hf

/-- An entry placed, an event, and no open job to tell the print unit of. -/
theorem noticeHearing_entryMoved (n : Nat) {e : Station} (he : e.openJob = none) (v : Event) (c : Chip) (g : Give) :
    c.entryMoved (noticeHearing g n (recordEvent v (c.putStation n e))) n e [v.logged] := by
  have h := putStation_recordEvent_entryMoved n e v c
  rw [noticeHearing_none (by rw [h.self]; exact he)]
  exact h

/-- What a hearing keeps of a LEGACY entry: its kind, standing and score. It is no clash, and at home no flap. -/
def Station.heardAs (e e' : Station) (k : Nat) (x : Heard) : Prop :=
  e.kind = .legacy → e'.kind = .legacy ∧ e'.quarantined = e.quarantined ∧ e'.score = e.score ∧ x ≠ .clash ∧
    (e.trunk = k → x = .taken)

/-- A hearing replaces the entry heard, by one with no open job (R52 to R55). -/
theorem hear_entryMoved {n : Nat} {c : Chip} (ho : (c.station n).openJob = none) (k : Nat) (g : Give) :
    ∃ e l, c.entryMoved (hear g n k c).2 n e l ∧ e.openJob = none ∧ (c.station n).heardAs e k (hear g n k c).1 := by
  have hclash : ∀ h : (c.station n).kind ≠ .legacy, ∃ e l, c.entryMoved (hearClash n k c).2 n e l ∧
      e.openJob = none ∧ (c.station n).heardAs e k (hearClash n k c).1 := fun h =>
    ⟨_, _, recordEvent_entryMoved .., ho, fun hk => absurd hk h⟩
  unfold hear
  extract_lets e
  split
  · next hk => exact ⟨_, _, putStation_recordEvent_entryMoved .., rfl, fun h => nomatch hk.symm.trans h⟩
  · next hk =>
    have hne : (c.station n).kind ≠ .legacy := fun h => nomatch hk.symm.trans h
    split
    · exact hclash hne
    · have hevict : c.entryMoved (evictProxy g n c) n (c.station n) [(evProxyEvicted n (c.station n).addr).logged] := by
        rw [evictProxy, abandonOpen_none ho]
        exact recordEvent_entryMoved ..
      exact ⟨_, _, hevict.trans (putStation_recordEvent_entryMoved ..), rfl, fun h => absurd h hne⟩
  · next hk => exact hclash fun h => nomatch hk.symm.trans h
  · next hk =>
    split
    · exact ⟨_, _, hearHome_entryMoved ho g, ho, fun _ => ⟨hk, rfl, rfl, Heard.noConfusion, fun _ => rfl⟩⟩
    · next ht =>
      split
      · exact ⟨_, _, noticeHearing_entryMoved n (by exact ho) .., ho,
          fun _ => ⟨hk, rfl, rfl, Heard.noConfusion, fun h => absurd h ht⟩⟩
      · exact ⟨_, _, noticeHearing_entryMoved n (by exact ho) .., ho,
          fun _ => ⟨hk, rfl, rfl, Heard.noConfusion, fun h => absurd h ht⟩⟩

theorem hear_home {n k : Nat} {c : Chip} (hk : (c.station n).kind = .legacy) (ht : (c.station n).trunk = k) (g : Give) :
    hear g n k c = (.taken, hearHome g n c) := by
  unfold hear
  simp only [hk, ht, if_true]

/-! ### A station charge with no open job (R100, R128) -/

/-- The score after a charge of weight `w` (R100). -/
def Station.chargedScore (w : Nat) (e : Station) : Nat := if w = 0 then e.score else min 255 (e.score + w)

/-- A charge of weight `w` brings a GOOD entry to the station limit (R100). -/
abbrev Station.crosses (limit w : Nat) (e : Station) : Prop :=
  e.quarantined = false ∧ w ≠ 0 ∧ limit ≤ e.chargedScore w

/-- The entry after such a charge: its score, and QUARANTINED when it crosses. -/
def Station.charged (limit w : Nat) (e : Station) : Station :=
  { e with score := e.chargedScore w, quarantined := e.quarantined || decide (e.crosses limit w) }

/-- A GOOD entry with no open job becomes QUARANTINED (R128). -/
theorem quarantineStation_entryMoved {n : Nat} {c : Chip} (ho : (c.station n).openJob = none) (hn : c.noReactions)
    (cause : Nat) : c.entryMoved (quarantineStation top n cause c) n { c.station n with quarantined := true }
      [.plain .station 10 (wordNat n) (octetPair cause (c.station n).score) 0] := by
  have h := putStation_recordEvent_entryMoved n { c.station n with quarantined := true }
    (evStationQuarantined n cause (c.station n).score) c
  have hself := (putStation_entryMoved n { c.station n with quarantined := true } c).self
  unfold quarantineStation
  dsimp only
  rw [hself, abandonOpen_none (by rw [h.self]; exact ho), top_of_noReactions (noReactions_of_ctl h.ctl hn),
    ← logged_stationQuarantined]
  exact h

/-- A charge replaces the entry, and records STATION_QUARANTINED with cause CHARGE when it crosses. -/
theorem chargeStation_entryMoved {n : Nat} {c : Chip} (ho : (c.station n).openJob = none) (hn : c.noReactions)
    (w : Nat) : c.entryMoved (chargeStation top n w c) n ((c.station n).charged c.ctl.health.stationLimit w)
      (if (c.station n).crosses c.ctl.health.stationLimit w then
        [.plain .station 10 (wordNat n) (octetPair 1 ((c.station n).chargedScore w)) 0] else []) := by
  unfold chargeStation
  by_cases hw : w = 0
  · rw [if_pos hw, if_neg fun h => h.2.1 hw]
    have he : (c.station n).charged c.ctl.health.stationLimit w = c.station n := by
      simp [Station.charged, Station.chargedScore, Station.crosses, hw]
    rw [he]
    exact entryMoved_refl n c
  · have hscore : satAdd 255 (c.station n).score w = (c.station n).chargedScore w := by
      rw [Station.chargedScore, if_neg hw]
      rfl
    have hput := putStation_entryMoved n { c.station n with score := (c.station n).chargedScore w } c
    rw [if_neg hw]
    dsimp only
    rw [hscore]
    by_cases hx : (c.station n).crosses c.ctl.health.stationLimit w
    · have hq := quarantineStation_entryMoved (by rw [hput.self]; exact ho) (noReactions_of_ctl hput.ctl hn) 1
      rw [if_pos hx, if_pos ⟨hx.2.2, by simp [hx.1]⟩]
      rw [hput.self] at hq
      rw [Station.charged, decide_eq_true hx, Bool.or_true]
      exact hput.trans hq
    · rw [if_neg hx, if_neg fun h => hx ⟨by simpa using h.2, hw, h.1⟩]
      rw [Station.charged, decide_eq_false hx, Bool.or_false]
      exact hput

end Sys2Proof.Machine

/-! PROOF. The verdicts of stage two (R81 to R91), and its release with them. -/

namespace Sys2Proof.Machine

/-! ### What each unit has to do with a frame (R41, R44) -/

/-- The print unit has no part in a verdict other than TO_PRINT. -/
theorem stagePrint_of_ne {r : Verdict} (h : r.code ≠ 7) (g : Give) (e : Engine) (v : Slot) (c : Chip) :
    stagePrint g e v r c = (r, c) :=
  if_neg h

theorem evaluate_fixed {v : Slot} {r : Verdict} (h : v.fixed = some r) (g : Give) (e : Engine) (c : Chip) :
    evaluate g e v c = (r, c) := by
  simp only [evaluate, h]

/-- A coax frame whose trunk is found cut (R84). -/
theorem evaluate_cut {v : Slot} {c : Chip} (h : v.fixed = none) (hc : (c.trunk v.trunk).state.cut = true) (g : Give) :
    evaluate g .coax v c = ({ code := 14, detail := 1 }, c) := by
  simp only [evaluate, h, hc, if_true]

theorem evaluate_coax {v : Slot} {c : Chip} (h : c.coaxFrame v) (g : Give) : evaluate g .coax v c =
    stagePrint g .coax v (coaxStation g v c).1 (stageHealth g v (coaxStation g v c).2.1 (coaxStation g v c).2.2) := by
  obtain ⟨-, hfixed, hup⟩ := h
  simp only [evaluate, hfixed, not_cut_of_up hup, if_neg Bool.false_ne_true]

theorem coaxFrame_noReactions {v : Slot} {c : Chip} (h : c.coaxFrame v) : c.noReactions := by
  obtain ⟨⟨-, -, -, -, hn⟩, -⟩ := h
  exact hn

/-- A coax frame with a bad header charges its trunk (R34, R99). -/
theorem evaluate_badHeader {v : Slot} {c : Chip} (h : c.coaxFrame v) (hs : ¬ v.sumGood 0) (g : Give) :
    evaluate g .coax v c = ({ code := 11, detail := 1 }, chargeTrunk g v.trunk c.ctl.health.header c) := by
  have hg : v.headerGood .coax = false := Bool.not_eq_true _ ▸ fun k => hs ((headerGood_iff .coax v).mp k)
  have hstation : coaxStation g v c = ({ code := 11, detail := 1 }, .taken, c) := by
    rw [coaxStation, hg]
    rfl
  rw [evaluate_coax h, hstation, stageHealth, hg]
  rfl

/-- A coax frame with a good header from a station 1–254 is heard, and then gets its verdict (R52, R81). -/
theorem coaxStation_heard {v : Slot} {c d : Chip} {x : Heard} {g : Give} (hs : v.sumGood 0)
    (hn : v.num 1 ≠ 0 ∧ v.num 1 ≠ 255) (hh : hear g (v.num 1) v.trunk c = (x, d)) :
    coaxStation g v c = (coaxRest d x v, x, d) := by
  have hsrc : ¬ (v.src .coax = 0 ∨ v.src .coax = 255) := not_or.mpr hn
  have hh' : hear g (v.src .coax) v.trunk c = (x, d) := hh
  simp only [coaxStation, (headerGood_iff .coax v).mpr hs, Bool.not_true, if_neg Bool.false_ne_true, if_neg hsrc, hh']

theorem evaluate_heard {v : Slot} {c d : Chip} {x : Heard} {g : Give} (h : c.coaxFrame v) (hs : v.sumGood 0)
    (hn : v.num 1 ≠ 0 ∧ v.num 1 ≠ 255) (hh : hear g (v.num 1) v.trunk c = (x, d))
    (h7 : (coaxRest d x v).code ≠ 7) : evaluate g .coax v c = (coaxRest d x v, stageHealth g v x d) := by
  rw [evaluate_coax h, coaxStation_heard hs hn hh]
  exact stagePrint_of_ne h7 ..

/-- The weight of a station charge: LONG, MISMATCH and a flap in one (R100). -/
def Slot.stationWeight (h : HealthRec) (v : Slot) (x : Heard) : Nat :=
  (if coaxError v.saved = 3 then h.stationLong else 0) +
    (if v.length ≠ 8 + (v.num 4 * 256 + v.num 5) then h.stationMismatch else 0) +
    (if x = .flap then h.stationConflict else 0)

/-- The health unit charges a LEGACY source that is no clash, and, of a MALFORMED frame, its trunk first (R99, R100). -/
theorem stageHealth_of_good {v : Slot} (hs : v.sumGood 0) (g : Give) (x : Heard) (c : Chip) :
    stageHealth g v x c =
      let d := if v.malformed then chargeTrunk g v.trunk c.ctl.health.malformed c else c
      if v.num 1 = 0 ∨ v.num 1 = 255 ∨ x = .clash ∨ (d.station (v.num 1)).kind ≠ .legacy then d
      else chargeStation g (v.num 1) (v.stationWeight c.ctl.health x) d := by
  have hw : v.stationWeight c.ctl.health x = (if v.err .coax = 3 then c.ctl.health.stationLong else 0) +
      (if v.mismatch then c.ctl.health.stationMismatch else 0) +
      (if x = .flap then c.ctl.health.stationConflict else 0) := by
    simp only [mismatch_iff]
    rfl
  rw [stageHealth, (headerGood_iff .coax v).mpr hs, hw]
  rfl

/-! ### Coax frames (R81 to R85) -/

/-- The verdict of a frame that is not MALFORMED, from a QUARANTINED source (R81). -/
theorem coaxRest_quarantined {c : Chip} {v : Slot} {x : Heard} (hm : v.malformed = false) (hx : x ≠ .clash)
    (hq : (c.station (v.num 1)).quarantined = true) :
    coaxRest c x v = { code := 12, src := v.num 1, dst := v.num 0, detail := 1 } := by
  have hq' : (c.station (v.src .coax)).quarantined = true := hq
  simp only [coaxRest, hm, if_neg Bool.false_ne_true, if_neg hx, if_pos hq']
  rfl

/-- From a GOOD source the verdict goes by the destination (R82 to R85). -/
theorem coaxRest_good {c : Chip} {v : Slot} (hm : v.malformed = false) (hq : (c.station (v.num 1)).quarantined = false) :
    coaxRest c .taken v =
      if c.ctl.unit.u ≠ 0 ∧ v.num 0 = c.ctl.unit.u ∧ printKind (v.num 2) then
        { code := 7, src := v.num 1, dst := c.ctl.unit.u }
      else if v.num 0 = 0 then { code := 4, src := v.num 1, mask := c.broadcastMask v.trunk, pairFlag := true }
      else if c.ctl.unit.u ≠ 0 ∧ v.num 0 = c.ctl.unit.u then { code := 6, src := v.num 1, dst := c.ctl.unit.u }
      else coaxToEntry c v.trunk (v.num 1) (v.num 0) := by
  have hq' : (c.station (v.src .coax)).quarantined = false := hq
  simp only [coaxRest, hm, if_neg Bool.false_ne_true, if_neg (Heard.noConfusion : ¬ Heard.taken = .clash), hq']
  rfl

theorem not_malformed {c : Chip} {v : Slot} (h : c.heardFrame v) : v.malformed = false := by
  obtain ⟨-, -, hlen, h255, hn0, hn255⟩ := h
  rw [← Bool.not_eq_true, malformed_iff]
  exact not_or.mpr ⟨not_not_intro hlen, not_or.mpr ⟨hn0, not_or.mpr ⟨hn255, h255⟩⟩⟩

theorem coaxRest_broadcast {c : Chip} {v : Slot} (h : c.goodFrame v) (h0 : v.num 0 = 0) : coaxRest c .taken v =
    { code := 4, src := v.num 1, mask := c.broadcastMask v.trunk, pairFlag := true } := by
  obtain ⟨hheard, -, -, -, hq⟩ := h
  rw [coaxRest_good (not_malformed hheard) hq, if_neg fun hu => hu.1 (hu.2.1.symm.trans h0), if_pos h0]

theorem coaxRest_toUnit {c : Chip} {v : Slot} (h : c.goodFrame v) (h0 : v.num 0 ≠ 0) (hu : v.num 0 = c.ctl.unit.u)
    (hk : ¬ (16 ≤ v.num 2 ∧ v.num 2 ≤ 19)) :
    coaxRest c .taken v = { code := 6, src := v.num 1, dst := v.num 0 } := by
  obtain ⟨hheard, -, -, -, hq⟩ := h
  rw [coaxRest_good (not_malformed hheard) hq, if_neg fun hp => hk ((printKind_iff _).mp hp.2.2), if_neg h0,
    if_pos ⟨hu ▸ h0, hu⟩, hu]

theorem coaxRest_toEntry {c : Chip} {v : Slot} (h : c.goodFrame v) (h0 : v.num 0 ≠ 0) (hu : v.num 0 ≠ c.ctl.unit.u) :
    coaxRest c .taken v = coaxToEntry c v.trunk (v.num 1) (v.num 0) := by
  obtain ⟨hheard, -, -, -, hq⟩ := h
  rw [coaxRest_good (not_malformed hheard) hq, if_neg fun hp => hu hp.2.1, if_neg h0, if_neg fun hp => hu hp.2]

/-- A frame from a GOOD LEGACY station with no open job, heard at home: nothing is charged, and the verdict is the one
found before the hearing (R54, R81, R100). -/
theorem evaluate_good {c : Chip} {v : Slot} {r : Verdict} (h : c.goodFrame v)
    (ho : (c.station (v.num 1)).openJob = none) (hr : coaxRest c .taken v = r) (h7 : r.code ≠ 7) :
    evaluate top .coax v c = (r, hearHome top (v.num 1) c) := by
  obtain ⟨hheard, herr, hk, ht, -⟩ := h
  have hm := not_malformed hheard
  obtain ⟨hframe, hs, hlen, -, hn⟩ := hheard
  have hmoved := hearHome_entryMoved ho top
  have hrest : coaxRest (hearHome top (v.num 1) c) .taken v = r :=
    ((hmoved.standsAs rfl rfl rfl rfl).coaxRest .taken v).trans hr
  have hweight : v.stationWeight (hearHome top (v.num 1) c).ctl.health .taken = 0 := by
    simp [Slot.stationWeight, herr, hlen]
  rw [evaluate_heard hframe hs hn (hear_home hk ht top) (hrest ▸ h7), hrest, stageHealth_of_good hs, hm, hweight]
  exact congrArg (Prod.mk r) (ite_self _)

/-- Stage two of such a frame. -/
theorem stageTwo_good {s : State} {v : Slot} {r : Verdict} {words : List (Word × Bool)} (h : s.chip.goodFrame v)
    (ho : (s.chip.station (v.num 1)).openJob = none) (hr : coaxRest s.chip .taken v = r) (h7 : r.code ≠ 7)
    (hw : unstruck r.words = words) :
    ∃ t, exec (.stageTwo .coax) s = .next t ∧ s.released t .coax v words := by
  obtain ⟨⟨⟨hv, -⟩, -⟩, -⟩ := id h
  obtain ⟨t, ht, hrel, -⟩ := stageTwo_released hv (evaluate_good h ho hr h7) (hearHome_entryMoved ho top).seen
  exact ⟨t, ht, hw ▸ hrel⟩

/-- A frame from a QUARANTINED LEGACY station, heard wherever it is: it may be charged, and stays QUARANTINED
(R81, R100). -/
theorem stageTwo_quarantined {s : State} {v : Slot} (h : s.chip.heardFrame v)
    (hk : (s.chip.station (v.num 1)).kind = .legacy) (hq : (s.chip.station (v.num 1)).quarantined = true)
    (ho : (s.chip.station (v.num 1)).openJob = none) :
    ∃ t, exec (.stageTwo .coax) s = .next t ∧ s.released t .coax v (verdictOf 12 (v.num 1) (v.num 0) 1 0) := by
  have hm := not_malformed h
  obtain ⟨hframe, hs, -, -, hn⟩ := h
  obtain ⟨e, l, hmoved, he, hlegacy⟩ := hear_entryMoved ho v.trunk top
  obtain ⟨⟨x, d⟩, hh⟩ : ∃ r, hear top (v.num 1) v.trunk s.chip = r := ⟨_, rfl⟩
  rw [hh] at hmoved hlegacy
  obtain ⟨hek, heq, -, hx, -⟩ := hlegacy hk
  have hself := hmoved.self
  have hrest : coaxRest d x v = _ := coaxRest_quarantined hm hx (by rw [hself, heq, hq])
  have hcharge := chargeStation_entryMoved (c := d) (by rw [hself]; exact he)
    (noReactions_of_ctl hmoved.ctl (coaxFrame_noReactions hframe)) (v.stationWeight d.ctl.health x)
  have heval := evaluate_heard hframe hs hn hh (by rw [hrest]; exact (by decide : (12 : Nat) ≠ 7))
  rw [hrest, stageHealth_of_good hs, hm] at heval
  dsimp only at heval
  rw [if_neg Bool.false_ne_true, if_neg (by simp [hn, hx, hself, hek])] at heval
  obtain ⟨t, ht, hrel, -⟩ := stageTwo_released hframe.1 heval (hmoved.seen.trans hcharge.seen)
  exact ⟨t, ht, unstruck_words_plain 12 .. ▸ hrel⟩

/-! ### Pair frames (R87 to R91) -/

theorem evaluate_pair {v : Slot} {c : Chip} (h : v.fixed = none) (g : Give) :
    evaluate g .pair v c = stagePrint g .pair v (pairStation g v c).1 (pairStation g v c).2 := by
  simp only [evaluate, h]

/-- A pair frame with a verdict that nothing is changed for. -/
theorem stageTwo_pair_unseen {s : State} {v : Slot} {code detail : Nat} (h : s.chip.evaluating .pair v)
    (hf : v.fixed = none) (hr : pairStation top v s.chip = ({ code := code, detail := detail }, s.chip))
    (h7 : code ≠ 7) :
    ∃ t, exec (.stageTwo .pair) s = .next t ∧ s.released t .pair v (verdictOf code 0 0 detail 0) ∧
      t.chip = { s.chip with path := t.chip.path, frm := t.chip.frm } ∧
      s.chip.logs t.chip [] ∧ s.chip.formed t.chip .print [] := by
  rw [← unstruck_words_plain]
  refine stageTwo_unseen h ?_
  rw [evaluate_pair hf, hr]
  exact stagePrint_of_ne h7 ..

theorem pairStation_error {v : Slot} (h : pairError v.saved ≠ 0) (g : Give) (c : Chip) :
    pairStation g v c = ({ code := 10, detail := pairError v.saved }, c) :=
  if_pos h

theorem pairStation_notLink {v : Slot} {c : Chip} (h : pairError v.saved = 0) (hl : v.link c.ctl.unit = false)
    (g : Give) : pairStation g v c = ({ code := 8 }, c) := by
  have herr : ¬ v.err .pair ≠ 0 := not_not_intro h
  rw [pairStation, if_neg herr, hl]
  rfl

theorem linkArrived_fixed {c : Chip} {v : Slot} (h : c.linkArrived v) : v.fixed = none := by
  obtain ⟨-, hf, -⟩ := h
  exact hf

section Link

variable {c : Chip} {v : Slot} (h : c.linkArrived v)
include h

/-- A link frame has no error and is one (R36, R87). -/
theorem linkArrived_reads : ¬ v.err .pair ≠ 0 ∧ v.link c.ctl.unit = true := by
  obtain ⟨-, -, herr, hlink⟩ := h
  exact ⟨not_not_intro herr, (link_iff _ v).mpr hlink⟩

theorem pairStation_nowhere (hd : v.destinedNowhere c.ctl.unit) (g : Give) :
    pairStation g v c = ({ code := 8 }, c) := by
  obtain ⟨herr, hlink⟩ := linkArrived_reads h
  simp only [pairStation, if_neg herr, hlink, Bool.not_true, if_neg Bool.false_ne_true, readDest_nowhere hd]

variable {a : Nat} {toUnit : Bool} (hd : v.destined c.ctl.unit a toUnit)
include hd

theorem pairStation_fault {k : Nat} (hf : v.linkFault = some k) (g : Give) :
    pairStation g v c = ({ code := 11, detail := k }, c) := by
  obtain ⟨herr, hlink⟩ := linkArrived_reads h
  simp only [pairStation, if_neg herr, hlink, Bool.not_true, if_neg Bool.false_ne_true, readDest_destined hd, hf]

/-- A source address the table holds: its proxy's age starts again (R70, R89). -/
theorem pairStation_found {p : Nat} (hf : v.linkFault = none) (hx : c.ctl.unit.inAliasBlock v.sourceAddr = false)
    (hp : c.findAddr v.sourceAddr = some p) (g : Give) : pairStation g v c =
      (pairRest c p a toUnit v, c.putStation p { c.station p with age := 0 }) := by
  have hlook : lookup g v.sourceAddr c = (.number p, c.putStation p { c.station p with age := 0 }) := by
    simp only [lookup, hx, if_neg Bool.false_ne_true, hp]
  have hstands := (putStation_entryMoved p { c.station p with age := 0 } c).standsAs rfl rfl rfl rfl
  obtain ⟨herr, hlink⟩ := linkArrived_reads h
  simp only [pairStation, if_neg herr, hlink, Bool.not_true, if_neg Bool.false_ne_true, readDest_destined hd, hf, hlook,
    hstands.pairRest]

end Link

/-- Stage two of a link frame from a proxy the table holds. -/
theorem stageTwo_found {s : State} {v : Slot} {a p : Nat} {toUnit : Bool} {r : Verdict} {words : List (Word × Bool)}
    (h : s.chip.linkArrived v) (hd : v.destined s.chip.ctl.unit a toUnit) (hf : v.linkFault = none)
    (hx : s.chip.ctl.unit.inAliasBlock v.sourceAddr = false) (hp : s.chip.findAddr v.sourceAddr = some p)
    (hr : pairRest s.chip p a toUnit v = r) (h7 : r.code ≠ 7) (hw : unstruck r.words = words) :
    ∃ t, exec (.stageTwo .pair) s = .next t ∧ s.released t .pair v words := by
  obtain ⟨hv, hfixed, -⟩ := id h
  have heval : evaluate top .pair v s.chip = (r, s.chip.putStation p { s.chip.station p with age := 0 }) := by
    rw [evaluate_pair hfixed, pairStation_found h hd hf hx hp, hr]
    exact stagePrint_of_ne h7 ..
  obtain ⟨t, ht, hrel, -⟩ := stageTwo_released hv heval (putStation_entryMoved ..).seen
  exact ⟨t, ht, hw ▸ hrel⟩

theorem pairRest_quarantined {c : Chip} {p : Nat} (hq : (c.station p).quarantined = true) (a : Nat) (toUnit : Bool)
    (v : Slot) : pairRest c p a toUnit v = { code := 12, src := p, dst := a, detail := 1 } :=
  if_pos hq

section PairGood

variable {c : Chip} {p : Nat} (hq : (c.station p).quarantined = false) {v : Slot} {a : Nat}
include hq

theorem pairRest_toUnit (hk : ¬ (16 ≤ v.num 16 ∧ v.num 16 ≤ 19)) :
    pairRest c p a true v = { code := 6, src := p, dst := a } := by
  have hk' : ¬ (True ∧ printKind (v.kind .pair) = true) := fun hp => hk ((printKind_iff _).mp hp.2)
  simp only [pairRest, hq, if_neg Bool.false_ne_true, if_neg hk', if_true]

theorem pairRest_broadcast : pairRest c p 0 false v = { code := 4, src := p, mask := c.fullMask } := by
  simp [pairRest, hq]

theorem pairRest_toEntry (ha : a ≠ 0) : pairRest c p a false v = pairToEntry c p a := by
  simp [pairRest, hq, ha]

end PairGood

/-! ### A verdict by its destination's entry (R84, R85, R91) -/

section ToEntry

variable {c : Chip} {d : Nat} (s : Nat)

theorem coaxToEntry_home {k : Nat} (hk : (c.station d).kind = .legacy) (ht : (c.station d).trunk = k) :
    coaxToEntry c k s d = { code := 1, src := s, dst := d } := by
  simp only [coaxToEntry, hk, ht, if_true]

/-- From another trunk, a LEGACY entry's verdict is the one a pair frame gets (R84, R91). -/
theorem coaxToEntry_away {k : Nat} (hk : (c.station d).kind = .legacy) (ht : (c.station d).trunk ≠ k) :
    coaxToEntry c k s d = pairToEntry c s d := by
  simp only [coaxToEntry, pairToEntry, hk, if_neg ht]

theorem coaxToEntry_proxy_quarantined (k : Nat) (hk : (c.station d).kind = .proxy)
    (hq : (c.station d).quarantined = true) : coaxToEntry c k s d = { code := 12, src := s, dst := d, detail := 2 } := by
  simp only [coaxToEntry, hk, hq, if_true]

theorem coaxToEntry_proxy (k : Nat) (hk : (c.station d).kind = .proxy) (hq : (c.station d).quarantined = false) :
    coaxToEntry c k s d = { code := 3, src := s, addr := some (c.station d).addr } := by
  simp only [coaxToEntry, hk, hq, if_neg Bool.false_ne_true]

theorem coaxToEntry_empty (k : Nat) (hk : (c.station d).kind = .empty) : coaxToEntry c k s d =
    { code := 5, src := s, dst := d, mask := c.broadcastMask k, pairFlag := true } := by
  simp only [coaxToEntry, hk]

theorem pairToEntry_gone (hk : (c.station d).kind = .legacy)
    (h : c.ctl.unit.nt ≤ (c.station d).trunk ∨ (c.trunk (c.station d).trunk).state.cut = true) :
    pairToEntry c s d = { code := 14, src := s, dst := d, detail := 2 } := by
  simp only [pairToEntry, hk, (trunkGone_iff ..).mpr h, if_true]

theorem pairToEntry_quarantined (hk : (c.station d).kind = .legacy) (h : c.up (c.station d).trunk)
    (hq : (c.station d).quarantined = true) : pairToEntry c s d = { code := 12, src := s, dst := d, detail := 2 } := by
  simp only [pairToEntry, hk, not_trunkGone_of_up h, hq, if_neg Bool.false_ne_true, if_true]

theorem pairToEntry_legacy (hk : (c.station d).kind = .legacy) (h : c.up (c.station d).trunk)
    (hq : (c.station d).quarantined = false) :
    pairToEntry c s d = { code := 2, src := s, dst := d, mask := 2 ^ (c.station d).trunk } := by
  simp only [pairToEntry, hk, not_trunkGone_of_up h, hq, if_neg Bool.false_ne_true]

theorem pairToEntry_proxy (hk : (c.station d).kind = .proxy) :
    pairToEntry c s d = { code := 1, src := s, dst := d } := by
  simp only [pairToEntry, hk]

theorem pairToEntry_empty (hk : (c.station d).kind = .empty) :
    pairToEntry c s d = { code := 5, src := s, dst := d, mask := c.fullMask } := by
  simp only [pairToEntry, hk]

end ToEntry

theorem two_pow_trunk_lt {k : Nat} (h : k < 4) : 2 ^ k < 16 := Nat.pow_lt_pow_right (by decide) h

/-- Stage two of a coax frame with a bad header (R34, R99). -/
theorem stageTwo_badHeader {s : State} {v : Slot} (h : s.chip.coaxFrame v) (hs : ¬ v.sumGood 0) :
    ∃ t, exec (.stageTwo .coax) s = .next t ∧ s.released t .coax v (verdictOf 11 0 0 1 0) ∧
      ∀ k, t.chip.trunk k = if k = v.trunk then (s.chip.trunk k).raisedBy s.chip.ctl.health s.chip.ctl.health.header
        else s.chip.trunk k := by
  obtain ⟨hv, -, -, hconnected⟩ := id h
  have hmoved := chargeTrunk_trunkMoved hconnected (coaxFrame_noReactions h) s.chip.ctl.health.header
  obtain ⟨t, ht, hrel, hchip, -⟩ := stageTwo_released hv (evaluate_badHeader h hs top) hmoved.seen
  exact ⟨t, ht, unstruck_words_plain 11 .. ▸ hrel, hmoved.charges (by rw [hchip])⟩

/-- Settles O47: each clause is its verdict, found by a lemma above, and the release with it. -/
theorem stageTwoReleasesFrames : Obligations.StageTwoReleasesFrames := by
  unfold Obligations.StageTwoReleasesFrames
  intro e s
  refine ⟨fun h => ?_, fun v hv => ?_⟩
  · show Host.Outcome.next (s.onChip (stageTwo e)) = _
    rw [State.onChip, stageTwo_idle h]
    rfl
  intro out unseen u o mask
  refine ⟨fun code detail hf => ?_, fun he hf hcut => ?_, fun he hframe hs => ?_, fun he hframe hk hq ho => ?_,
    fun he hgood ho => ?_, fun he hf => ⟨fun herr => ?_, fun herr hlink => ?_⟩, fun he hlink hd => ?_,
    fun a toUnit he hlink hd => ⟨fun hs => ?_, fun hs hlen => ?_, fun p hs hlen hx hp => ?_⟩⟩
  · exact unstruck_words_plain code 0 0 detail ▸ stageTwo_unseen hv (evaluate_fixed hf ..)
  all_goals subst he
  · exact unstruck_words_plain 14 0 0 1 ▸ stageTwo_unseen hv (evaluate_cut hf hcut _)
  · obtain ⟨t, ht, hrel, -⟩ := stageTwo_badHeader hframe hs
    exact ⟨t, ht, hrel⟩
  · exact stageTwo_quarantined hframe hk hq ho
  · intro d others
    have hothers : others = s.chip.broadcastMask v.trunk := (broadcastMask_eq ..).symm
    refine ⟨fun h0 => ?_, fun h0 hu hk => ?_, fun h0 hu => ?_⟩
    · rw [hothers]
      exact stageTwo_good hgood ho (coaxRest_broadcast hgood h0) (by decide : 4 ≠ 7)
        (unstruck_words_pair 4 _ _ _ (trunkMask_lt ..))
    · exact stageTwo_good hgood ho (coaxRest_toUnit hgood h0 hu hk) (by decide : 6 ≠ 7) (unstruck_words_plain ..)
    have hrest := coaxRest_toEntry hgood h0 hu
    refine ⟨fun hk ht => ?_, fun hk ht => ?_, fun hk hq => ?_, fun hk hq => ?_, fun hk => ?_⟩
    · exact stageTwo_good hgood ho (hrest.trans (coaxToEntry_home _ hk ht)) (by decide : 1 ≠ 7)
        (unstruck_words_plain ..)
    · have haway := hrest.trans (coaxToEntry_away _ hk ht)
      refine ⟨fun hgone => ?_, fun hup hq => ?_, fun hup h4 hq => ?_⟩
      · exact stageTwo_good hgood ho (haway.trans (pairToEntry_gone _ hk hgone)) (by decide : 14 ≠ 7)
          (unstruck_words_plain ..)
      · exact stageTwo_good hgood ho (haway.trans (pairToEntry_quarantined _ hk hup hq)) (by decide : 12 ≠ 7)
          (unstruck_words_plain ..)
      · exact stageTwo_good hgood ho (haway.trans (pairToEntry_legacy _ hk hup hq)) (by decide : 2 ≠ 7)
          (unstruck_words 2 _ _ _ (two_pow_trunk_lt h4))
    · exact stageTwo_good hgood ho (hrest.trans (coaxToEntry_proxy_quarantined _ _ hk hq)) (by decide : 12 ≠ 7)
        (unstruck_words_plain ..)
    · exact stageTwo_good hgood ho (hrest.trans (coaxToEntry_proxy _ _ hk hq)) (by decide : 3 ≠ 7)
        (unstruck_words_addr ..)
    · rw [hothers]
      exact stageTwo_good hgood ho (hrest.trans (coaxToEntry_empty _ _ hk)) (by decide : 5 ≠ 7)
        (unstruck_words_pair 5 _ _ _ (trunkMask_lt ..))
  · exact stageTwo_pair_unseen hv hf (pairStation_error herr ..) (by decide)
  · have hl : v.link u = false := by
      rw [← Bool.not_eq_true, link_iff]
      exact fun ⟨h0, htype⟩ => hlink.elim h0 fun h => h htype
    exact stageTwo_pair_unseen hv hf (pairStation_notLink herr hl _) (by decide)
  · exact stageTwo_pair_unseen hv (linkArrived_fixed hlink) (pairStation_nowhere hlink hd _) (by decide)
  · exact stageTwo_pair_unseen hv (linkArrived_fixed hlink) (pairStation_fault hlink hd (linkFault_check hs) _) (by decide)
  · have hfault := (linkFault_of_good hs).trans (if_pos hlen)
    exact stageTwo_pair_unseen hv (linkArrived_fixed hlink) (pairStation_fault hlink hd hfault _) (by decide)
  · intro d
    have hfault := (linkFault_of_good hs).trans (if_neg (Nat.not_lt.mpr hlen))
    have hmask : mask (fun k => decide (s.chip.up k)) = s.chip.fullMask := (fullMask_eq _).symm
    refine ⟨fun hq => ?_, fun hq => ⟨fun hto hk => ?_, fun hto ha => ?_, fun hto ha => ?_⟩⟩
    · exact stageTwo_found hlink hd hfault hx hp (pairRest_quarantined hq ..) (by decide : 12 ≠ 7)
        (unstruck_words_plain ..)
    all_goals subst hto
    · exact stageTwo_found hlink hd hfault hx hp (pairRest_toUnit hq hk) (by decide : 6 ≠ 7) (unstruck_words_plain ..)
    · subst ha
      rw [hmask]
      exact stageTwo_found hlink hd hfault hx hp (pairRest_broadcast hq) (by decide : 4 ≠ 7)
        (unstruck_words 4 _ _ _ (trunkMask_lt ..))
    have hrest : pairRest s.chip p a false v = _ := pairRest_toEntry hq ha
    refine ⟨fun hk hgone => ?_, fun hk hup hq => ?_, fun hk hup hq h4 => ?_, fun hk => ?_, fun hk => ?_⟩
    · exact stageTwo_found hlink hd hfault hx hp (hrest.trans (pairToEntry_gone _ hk hgone)) (by decide : 14 ≠ 7)
        (unstruck_words_plain ..)
    · exact stageTwo_found hlink hd hfault hx hp (hrest.trans (pairToEntry_quarantined _ hk hup hq))
        (by decide : 12 ≠ 7) (unstruck_words_plain ..)
    · exact stageTwo_found hlink hd hfault hx hp (hrest.trans (pairToEntry_legacy _ hk hup hq)) (by decide : 2 ≠ 7)
        (unstruck_words 2 _ _ _ (two_pow_trunk_lt h4))
    · exact stageTwo_found hlink hd hfault hx hp (hrest.trans (pairToEntry_proxy _ hk)) (by decide : 1 ≠ 7)
        (unstruck_words_plain ..)
    · rw [hmask]
      exact stageTwo_found hlink hd hfault hx hp (hrest.trans (pairToEntry_empty _ hk)) (by decide : 5 ≠ 7)
        (unstruck_words 5 _ _ _ (trunkMask_lt ..))

end Sys2Proof.Machine

/-! PROOF. The charges of stage two (R35, R99 to R101, R128). -/

namespace Sys2Proof.Machine

theorem stationWeight_taken (h : HealthRec) (v : Slot) : v.stationWeight h .taken =
    (if coaxError v.saved = 3 then h.stationLong else 0) +
      (if v.length ≠ 8 + (v.num 4 * 256 + v.num 5) then h.stationMismatch else 0) :=
  Nat.add_zero _

/-! ### MALFORMED frames (R35, R99) -/

theorem coaxRest_malformed {v : Slot} (hm : v.malformed = true) (c : Chip) (x : Heard) : coaxRest c x v =
    { code := 11, detail := 2, src := if v.num 1 = 255 then 0 else v.num 1, dst := if v.num 0 = 255 then 0 else v.num 0 } :=
  if_pos hm

theorem coaxRest_malformed_code {v : Slot} (hm : v.malformed = true) (c : Chip) (x : Heard) :
    (coaxRest c x v).code ≠ 7 := by
  rw [coaxRest_malformed hm]
  exact (by decide : 11 ≠ 7)

/-- A MALFORMED frame from no station 1–254 is not heard (R52). -/
theorem coaxStation_unheard {v : Slot} (hs : v.sumGood 0) (hn : v.num 1 = 0 ∨ v.num 1 = 255) (g : Give) (c : Chip) :
    coaxStation g v c = (coaxRest c .taken v, .taken, c) := by
  have hsrc : v.src .coax = 0 ∨ v.src .coax = 255 := hn
  simp only [coaxStation, (headerGood_iff .coax v).mpr hs, Bool.not_true, if_neg Bool.false_ne_true, if_pos hsrc]

/-- A charge goes by an entry's standing and score. -/
theorem charged_standing {e e' : Station} (hq : e'.quarantined = e.quarantined) (hs : e'.score = e.score)
    (limit w : Nat) : (e'.charged limit w).score = e.chargedScore w ∧
      (e'.charged limit w).quarantined = (e.charged limit w).quarantined := by
  have hscore : e'.chargedScore w = e.chargedScore w := by rw [Station.chargedScore, Station.chargedScore, hs]
  have hcross : e'.crosses limit w ↔ e.crosses limit w := by rw [Station.crosses, Station.crosses, hscore, hq]
  exact ⟨hscore, congrArg₂ or hq (decide_eq_decide.mpr hcross)⟩

/-- What the charges of a MALFORMED frame come to: the trunk's with the malformed weight, and the source's, for a
LEGACY station heard at home (R99, R100). -/
def Chip.malformedCharged (c d : Chip) (v : Slot) : Prop :=
  let n := v.num 1
  let w := v.stationWeight c.ctl.health .taken
  (∀ f : Chip, f.hlth = d.hlth → ∀ k, f.trunk k =
    if k = v.trunk then (c.trunk k).raisedBy c.ctl.health c.ctl.health.malformed else c.trunk k) ∧
  ((c.station n).kind = .legacy → (c.station n).trunk = v.trunk → n ≠ 0 → n ≠ 255 →
    (d.station n).score = (c.station n).chargedScore w ∧
      (d.station n).quarantined = ((c.station n).charged c.ctl.health.stationLimit w).quarantined)

/-- A MALFORMED frame from no station charges its trunk only. -/
theorem evaluate_malformed_unheard {c : Chip} {v : Slot} (h : c.coaxFrame v) (hs : v.sumGood 0)
    (hm : v.malformed = true) (hn : v.num 1 = 0 ∨ v.num 1 = 255) (x : Heard) :
    ∃ d, evaluate top .coax v c = (coaxRest c x v, d) ∧ c.seen d ∧ c.malformedCharged d v := by
  obtain ⟨-, -, hup⟩ := id h
  have hmoved := chargeTrunk_trunkMoved hup.2 (coaxFrame_noReactions h) c.ctl.health.malformed
  refine ⟨_, ?_, hmoved.seen, fun f hf => hmoved.charges hf, fun _ _ h0 h255 => (hn.elim h0 h255).elim⟩
  have hskip : ∀ P : Prop, v.num 1 = 0 ∨ v.num 1 = 255 ∨ P := fun _ => hn.imp_right Or.inl
  rw [evaluate_coax h, coaxStation_unheard hs hn, stageHealth_of_good hs, hm, coaxRest_malformed hm,
    ← coaxRest_malformed hm c x]
  dsimp only
  rw [if_pos rfl, if_pos (hskip _)]
  exact stagePrint_of_ne (coaxRest_malformed_code hm c x) ..

/-- A MALFORMED frame from a station with no open job is heard, and charges its trunk, then its LEGACY source. -/
theorem evaluate_malformed_heard {c : Chip} {v : Slot} (h : c.coaxFrame v) (hs : v.sumGood 0)
    (hm : v.malformed = true) (hn : v.num 1 ≠ 0 ∧ v.num 1 ≠ 255) (ho : (c.station (v.num 1)).openJob = none) (y : Heard) :
    ∃ d, evaluate top .coax v c = (coaxRest c y v, d) ∧ c.seen d ∧ c.malformedCharged d v := by
  obtain ⟨-, -, hup⟩ := id h
  obtain ⟨e, l, hmoved, he, hlegacy⟩ := hear_entryMoved ho v.trunk top
  obtain ⟨⟨x, d⟩, hh⟩ : ∃ r, hear top (v.num 1) v.trunk c = r := ⟨_, rfl⟩
  rw [hh] at hmoved hlegacy
  dsimp only at hmoved hlegacy
  have hctl := hmoved.ctl
  have hno := noReactions_of_ctl hctl (coaxFrame_noReactions h)
  have htrunk : ∀ k, d.trunk k = c.trunk k := Chip.trunk_of_hlth hmoved.hlth
  have hcharge := chargeTrunk_trunkMoved (c := d) (by rw [htrunk]; exact hup.2) hno d.ctl.health.malformed
  have heval := evaluate_heard h hs hn hh (coaxRest_malformed_code hm d x)
  rw [coaxRest_malformed hm, ← coaxRest_malformed hm c y, stageHealth_of_good hs, hm] at heval
  dsimp only at heval
  rw [if_pos rfl] at heval
  set d₁ := chargeTrunk top v.trunk d.ctl.health.malformed d with hd₁
  obtain ⟨p, hp⟩ : ∃ p, d₁.station (v.num 1) = { e with presence := p } := by
    obtain ⟨⟨-, -, -, -, hst⟩, -, -⟩ := hcharge
    obtain ⟨p, hp⟩ := hst (v.num 1)
    exact ⟨p, hp.trans (by rw [← hmoved.self]; rfl)⟩
  have hcharges : ∀ f : Chip, f.hlth = d₁.hlth → ∀ k, f.trunk k =
      if k = v.trunk then (c.trunk k).raisedBy c.ctl.health c.ctl.health.malformed else c.trunk k := fun f hf k => by
    rw [hcharge.charges hf, htrunk, hctl]
  split at heval
  · next hskip =>
    refine ⟨d₁, heval, hmoved.seen.trans hcharge.seen, hcharges, fun hk ht h0 h255 => ?_⟩
    obtain ⟨hek, -, -, hx, -⟩ := hlegacy hk
    exact absurd hskip (by simp [h0, h255, hx, hp, hek])
  · have hstation := chargeStation_entryMoved (c := d₁) (by rw [hp]; exact he) (noReactions_of_ctl hcharge.ctl hno)
      (v.stationWeight d.ctl.health x)
    refine ⟨_, heval, (hmoved.seen.trans hcharge.seen).trans hstation.seen,
      fun f hf => hcharges f (hf.trans hstation.hlth), fun hk ht _ _ => ?_⟩
    obtain ⟨-, heq, hes, -, hx⟩ := hlegacy hk
    rw [hstation.self, hp, hx ht, hcharge.ctl, hctl]
    exact charged_standing heq hes ..

/-! ### Frames of a LEGACY station heard at home (R100, R128) -/

theorem coaxToEntry_code_ne (c : Chip) (t s d : Nat) : (coaxToEntry c t s d).code ≠ 7 := by
  unfold coaxToEntry
  dsimp only
  split
  · split_ifs <;> simp
  · split_ifs <;> simp
  · simp
  · simp

/-- Only a print frame to the unit gets a TO_PRINT verdict (R82). -/
theorem coaxRest_code_ne {c : Chip} {v : Slot}
    (h : v.num 0 ≠ c.ctl.unit.u ∨ v.num 0 = 0 ∨ ¬ (16 ≤ v.num 2 ∧ v.num 2 ≤ 19)) (x : Heard) :
    (coaxRest c x v).code ≠ 7 := by
  have hp : ¬ (c.ctl.unit.u ≠ 0 ∧ v.dst .coax = c.ctl.unit.u ∧ printKind (v.kind .coax)) := fun ⟨hu, hd, hk⟩ =>
    h.elim (fun h => h hd) fun h => h.elim (fun h => hu (hd.symm.trans h)) fun h => h ((printKind_iff _).mp hk)
  unfold coaxRest
  dsimp only
  rw [if_neg hp]
  split_ifs
  all_goals simp [coaxToEntry_code_ne]

/-- The part after the release of a frame that only an entry and events were changed for. -/
theorem released_of_entryMoved {c d f : Chip} {n : Nat} {e : Station} {l : List Logged} (h : c.entryMoved d n e l)
    (hf : f = { d with path := f.path, frm := f.frm }) (hforms : ∀ o, o ≠ .frame → d.formed f o []) :
    f = { c.over f with frm := f.frm, stn := { c.stn with table := f.stn.table } } ∧
      (∀ m, f.station m = if m = n then e else c.station m) ∧ c.logs f l ∧ c.formed f .print [] := by
  obtain ⟨hd, hevents, ⟨hevt, hlogs⟩, hst⟩ := h
  have hctl : f.ctl = c.ctl := by rw [hf, hd]
  have hstn : f.stn = d.stn := by rw [hf]
  have hfevt : f.evt = d.evt := by rw [hf]
  refine ⟨?_, fun m => (Chip.station_of_stn hstn m).trans (hst m), ⟨hfevt.trans hevt, ?_⟩,
    formed_trans (l := []) (hevents.2 .print (by decide)) (hforms .print (by decide))⟩
  · conv_lhs => rw [hf, hd]
    simp only [Chip.over, hctl, hstn, hfevt]
  · simpa using formed_trans hlogs (hforms .event (by decide))

/-- The station charge of a frame that is not MALFORMED, from a LEGACY station heard at home. -/
theorem evaluate_home {c : Chip} {v : Slot} (h : c.coaxFrame v) (hs : v.sumGood 0) (hm : v.malformed = false)
    (hn : v.num 1 ≠ 0 ∧ v.num 1 ≠ 255) (hk : (c.station (v.num 1)).kind = .legacy)
    (ht : (c.station (v.num 1)).trunk = v.trunk) (ho : (c.station (v.num 1)).openJob = none)
    (hp : v.num 0 ≠ c.ctl.unit.u ∨ v.num 0 = 0 ∨ ¬ (16 ≤ v.num 2 ∧ v.num 2 ≤ 19)) :
    let e := (c.station (v.num 1)).heardHome c.stn.clock
    let w := v.stationWeight c.ctl.health .taken
    ∃ r d, evaluate top .coax v c = (r, d) ∧
      c.entryMoved d (v.num 1) (e.charged c.ctl.health.stationLimit w)
        ((if (c.station (v.num 1)).presence = .silent then [presenceEvent (v.num 1) .silent .active] else []) ++
          if e.crosses c.ctl.health.stationLimit w then
            [.plain .station 10 (wordNat (v.num 1)) (octetPair 1 (e.chargedScore w)) 0] else []) := by
  intro e w
  have hheard := hearHome_entryMoved ho top
  have hctl := hheard.ctl
  have hself := hheard.self
  have hcharge := chargeStation_entryMoved (by rw [hself]; exact ho)
    (noReactions_of_ctl hctl (coaxFrame_noReactions h)) w
  rw [hself, hctl] at hcharge
  refine ⟨_, _, evaluate_heard h hs hn (hear_home hk ht top) (coaxRest_code_ne (by rw [hctl]; exact hp) _), ?_⟩
  rw [stageHealth_of_good hs, hm, hctl]
  dsimp only
  rw [if_neg Bool.false_ne_true, hself, if_neg (by simp [hn, Station.heardHome, hk])]
  exact hheard.trans hcharge

/-- Settles O51: a bad header, a MALFORMED frame, heard or not, and a LEGACY source heard at home. -/
theorem stageTwoChargesTrunksAndStations : Obligations.StageTwoChargesTrunksAndStations := by
  unfold Obligations.StageTwoChargesTrunksAndStations
  intro v s h n e hr long mismatch malformed w score crossed charged shown
  have hw : v.stationWeight s.chip.ctl.health .taken = w := stationWeight_taken ..
  refine ⟨stageTwo_badHeader h, fun hs hmal ho => ?_, fun hs hmal hk ht ho hp => ?_⟩
  · have hm : v.malformed = true := (malformed_iff v).mpr hmal
    obtain ⟨d, heval, hseen, htrunk, hstation⟩ : ∃ d, evaluate top .coax v s.chip = (coaxRest s.chip .taken v, d) ∧
        s.chip.seen d ∧ s.chip.malformedCharged d v := by
      by_cases hn : v.num 1 = 0 ∨ v.num 1 = 255
      · exact evaluate_malformed_unheard h hs hm hn _
      · exact evaluate_malformed_heard h hs hm (not_or.mp hn) (ho.resolve_right hn) _
    rw [coaxRest_malformed hm] at heval
    obtain ⟨t, hexec, hrel, hchip, -⟩ := stageTwo_released h.1 heval hseen
    refine ⟨t, hexec, unstruck_words_plain 11 .. ▸ hrel, htrunk _ (by rw [hchip]), fun hk ht h0 h255 => ?_⟩
    obtain ⟨hscore, hq⟩ := hstation hk ht h0 h255
    have hst : t.chip.station n = d.station n := Chip.station_of_stn (by rw [hchip]) n
    rw [hst]
    rw [hw] at hscore hq
    exact ⟨hscore, hq⟩
  · have hm : v.malformed = false := Bool.eq_false_iff.mpr fun hm => hmal ((malformed_iff v).mp hm)
    have hn : v.num 1 ≠ 0 ∧ v.num 1 ≠ 255 :=
      ⟨fun h0 => hmal (.inr (.inl h0)), fun h255 => hmal (.inr (.inr (.inl h255)))⟩
    obtain ⟨r, d, heval, hmoved⟩ := evaluate_home h hs hm hn hk ht ho hp
    rw [hw] at hmoved
    obtain ⟨t, hexec, hrel, hchip, hforms⟩ := stageTwo_released h.1 heval hmoved.seen
    exact ⟨t, _, hexec, hrel, released_of_entryMoved hmoved hchip hforms⟩

end Sys2Proof.Machine

/-! PROOF. Passes over the station table and the job table that record events: what each leaves of the part, entry by
entry and event by event. -/

namespace Sys2Proof.Machine

/-! ### Events told in turn (R176, R178) -/

/-- The control area and the control unit are those of `c`, and the queue and the waiting lists have grown by what the
events `l` form. -/
def Chip.tells (c d : Chip) (l : List Logged) : Prop := d.base = c.base ∧ d.ctl = c.ctl ∧ c.only d l

theorem only_of_path {c d : Chip} (hp : d.path = c.path) (he : d.evt = c.evt) : c.only d [] :=
  ⟨grew_of_path hp, ⟨he, formed_of_path hp _⟩, fun o _ => formed_of_path hp o⟩

theorem only_trans {c d f : Chip} {l m : List Logged} (hb : d.base = c.base) (hc : d.ctl = c.ctl) (h : c.only d l)
    (k : d.only f m) : c.only f (l ++ m) := by
  obtain ⟨hgrew, hlogs, hother⟩ := h
  obtain ⟨kgrew, klogs, kother⟩ := k
  exact ⟨grew_trans hgrew kgrew, logs_trans hb hc hlogs klogs, fun o ho => formed_trans (hother o ho) (kother o ho)⟩

theorem Chip.tells.trans {c d f : Chip} {l m : List Logged} (h : c.tells d l) (k : d.tells f m) : c.tells f (l ++ m) := by
  obtain ⟨hbase, hctl, honly⟩ := h
  obtain ⟨kbase, kctl, konly⟩ := k
  exact ⟨kbase.trans hbase, kctl.trans hctl, only_trans hbase hctl honly konly⟩

/-- A pass over numbers, each taken once: the step of number `n` makes `val n` of its entry and tells the events `ev n`,
whatever it does to the part as long as `F` holds. -/
theorem foldl_tells {α : Type} {get : Chip → Nat → α} {step : Chip → Nat → Chip} {was val : Nat → α}
    {ev : Nat → List Logged} {F : Chip → Prop} {l : List Nat}
    (hstep : ∀ d, ∀ n ∈ l, F d → get d n = was n → F (step d n) ∧ d.tells (step d n) (ev n) ∧
      ∀ k, get (step d n) k = if k = n then val n else get d k)
    (hl : l.Nodup) {c : Chip} (hc : F c) (hwas : ∀ n ∈ l, get c n = was n) :
    F (l.foldl step c) ∧ c.tells (l.foldl step c) (l.flatMap ev) ∧
      ∀ k, get (l.foldl step c) k = if k ∈ l then val k else get c k := by
  induction l generalizing c with
  | nil => exact ⟨hc, ⟨rfl, rfl, only_of_path rfl rfl⟩, fun k => by simp⟩
  | cons n l ih =>
    obtain ⟨hn, hl⟩ := List.nodup_cons.mp hl
    obtain ⟨h1, h2, h3⟩ := hstep c n (List.mem_cons_self ..) hc (hwas n (List.mem_cons_self ..))
    obtain ⟨k1, k2, k3⟩ := ih (fun d m hm => hstep d m (List.mem_cons_of_mem _ hm)) hl h1 fun m hm => by
      rw [h3, if_neg fun h : m = n => hn (h ▸ hm)]
      exact hwas m (List.mem_cons_of_mem _ hm)
    refine ⟨k1, h2.trans k2, fun k => ?_⟩
    rw [List.foldl_cons, k3, h3]
    by_cases hk : k = n
    · subst hk
      simp [hn]
    · simp [hk]

/-! ### Events of the numbers that meet a test -/

theorem flatMap_ite {α β : Type} (P : α → Prop) [DecidablePred P] (g : α → List β) (l : List α) :
    (l.flatMap fun n => if P n then g n else []) = (l.filter fun n => decide (P n)).flatMap g := by
  induction l with
  | nil => rfl
  | cons n l ih =>
    by_cases h : P n <;> simp [h, ih]

theorem flatMap_ite_singleton {α β : Type} (P : α → Prop) [DecidablePred P] (f : α → β) (l : List α) :
    (l.flatMap fun n => if P n then [f n] else []) = (l.filter fun n => decide (P n)).map f := by
  rw [flatMap_ite P (fun n => [f n])]
  exact List.flatMap_pure_eq_map ..

theorem filter_stationNumbers (P : Nat → Prop) [DecidablePred P] :
    (stationNumbers.filter fun n => decide (P n)) = (List.range 255).filter fun n => decide (n ≠ 0 ∧ P n) := by
  have hr : List.range 255 = 0 :: stationNumbers := List.range_succ_eq_map
  have hs : ∀ n ∈ stationNumbers, n ≠ 0 := fun n hn => (mem_stationNumbers.mp hn).1
  rw [hr, List.filter_cons_of_neg (by simp)]
  exact List.filter_congr fun n hn => by simp [hs n hn]

/-! ### Passes over the station table -/

/-- Nothing but the station table, the queue and the event unit sets `d` apart from `c`. -/
def Chip.tableMoved (c d : Chip) : Prop :=
  d = { c with path := d.path, evt := d.evt, stn := { c.stn with table := d.stn.table } }

/-- The table is `st` now, and the events `l` are told; nothing else has changed. -/
def Chip.tableBecomes (c d : Chip) (st : Nat → Station) (l : List Logged) : Prop :=
  c.tableMoved d ∧ c.only d l ∧ ∀ n, d.station n = st n

theorem Chip.tableMoved.trans {c d f : Chip} (h : c.tableMoved d) (k : d.tableMoved f) : c.tableMoved f := by
  unfold Chip.tableMoved at h k ⊢
  conv_lhs => rw [k, h]

theorem Chip.tableMoved.base {c d : Chip} (h : c.tableMoved d) : d.base = c.base := by rw [h]; rfl

theorem Chip.tableMoved.ctl {c d : Chip} (h : c.tableMoved d) : d.ctl = c.ctl := by rw [h]

theorem Chip.tableMoved.hlth {c d : Chip} (h : c.tableMoved d) : d.hlth = c.hlth := by rw [h]

theorem Chip.tableMoved.prt {c d : Chip} (h : c.tableMoved d) : d.prt = c.prt := by rw [h]

theorem Chip.tableMoved.limits {c d : Chip} (h : c.tableMoved d) : d.stn.limits = c.stn.limits := by rw [h]

theorem Chip.entryMoved.becomes {c d : Chip} {n : Nat} {e : Station} {l : List Logged} (h : c.entryMoved d n e l) :
    c.tableBecomes d (fun m => if m = n then e else c.station m) l := by
  obtain ⟨hframe, ⟨hgrew, hother⟩, hlogs, hst⟩ := h
  exact ⟨hframe, ⟨hgrew, hlogs, hother⟩, hst⟩

theorem tableBecomes_refl (c : Chip) : c.tableBecomes c c.station [] := ⟨rfl, only_of_path rfl rfl, fun _ => rfl⟩

theorem Chip.tableBecomes.trans {c d f : Chip} {st st' : Nat → Station} {l m : List Logged} (h : c.tableBecomes d st l)
    (k : d.tableBecomes f st' m) : c.tableBecomes f st' (l ++ m) := by
  obtain ⟨h1, h2, -⟩ := h
  obtain ⟨k1, k2, k3⟩ := k
  exact ⟨h1.trans k1, only_trans h1.base h1.ctl h2 k2, k3⟩

/-- A pass that replaces entry `n` by `val n`, with the events `ev n`. -/
theorem foldl_entryMoved {step : Chip → Nat → Chip} {val : Nat → Station} {ev : Nat → List Logged} {l : List Nat}
    {c : Chip} (hstep : ∀ d, ∀ n ∈ l, c.tableMoved d → d.station n = c.station n →
      d.entryMoved (step d n) n (val n) (ev n)) (hl : l.Nodup) :
    c.tableBecomes (l.foldl step c) (fun n => if n ∈ l then val n else c.station n) (l.flatMap ev) := by
  obtain ⟨h1, ⟨-, -, h2⟩, h3⟩ := foldl_tells (get := Chip.station) (F := c.tableMoved) (fun d n hn hd hwas => by
    obtain ⟨k1, k2, k3⟩ := (hstep d n hn hd hwas).becomes
    exact ⟨hd.trans k1, ⟨k1.base, k1.ctl, k2⟩, k3⟩) hl (c := c) rfl fun _ _ => rfl
  exact ⟨h1, h2, h3⟩

/-- A step that is taken for some entries only. -/
theorem entryMoved_ite {P : Prop} [Decidable P] {c d : Chip} {n : Nat} {e : Station} {l : List Logged}
    (h : P → c.entryMoved d n e l) : c.entryMoved (if P then d else c) n (if P then e else c.station n) (if P then l else []) := by
  split
  · next hp => exact h hp
  · exact entryMoved_refl n c

/-! ### The stations of a trunk cut and connected again (R58) -/

theorem setPresence_entryMoved (n : Nat) (v : Presence) (c : Chip) : c.entryMoved (setPresence n v c) n
    { c.station n with presence := v }
    (if (c.station n).presence ≠ v then [presenceEvent n (c.station n).presence v] else []) := by
  unfold setPresence
  extract_lets e
  by_cases h : e.presence = v
  · rw [if_pos h, if_neg (not_not_intro h)]
    have he : { c.station n with presence := v } = c.station n := by rw [← h]
    rw [he]
    exact entryMoved_refl n c
  · rw [if_neg h, if_pos h, ← logged_stationPresence]
    exact putStation_recordEvent_entryMoved ..

/-- A pass over the whole table that replaces the entries which meet a test, with an event of each that meets another. -/
theorem stationsPass_becomes {step : Chip → Nat → Chip} {P Q : Nat → Prop} [DecidablePred P] [DecidablePred Q]
    {val : Nat → Station} {f : Nat → Logged} {c : Chip}
    (hstep : ∀ d, ∀ n ∈ stationNumbers, c.tableMoved d → d.station n = c.station n →
      d.entryMoved (step d n) n (if P n then val n else c.station n) (if Q n then [f n] else [])) :
    c.tableBecomes (stationNumbers.foldl step c) (fun n => if n ≠ 0 ∧ n < 255 ∧ P n then val n else c.station n)
      (((List.range 255).filter fun n => decide (n ≠ 0 ∧ Q n)).map f) := by
  have h := foldl_entryMoved hstep stationNumbers_nodup
  rw [flatMap_ite_singleton Q, filter_stationNumbers] at h
  obtain ⟨h1, h2, h3⟩ := h
  refine ⟨h1, h2, fun n => (h3 n).trans ?_⟩
  simp only [mem_stationNumbers, ← and_assoc, ite_and]

theorem stationsCut_becomes (t : Nat) (c : Chip) : c.tableBecomes (stationsCut t c) (c.cutBy t)
    (((List.range 255).filter fun n =>
      decide (n ≠ 0 ∧ (c.station n).kind = .legacy ∧ (c.station n).trunk = t ∧
        (c.station n).presence ≠ .unreachable)).map
      fun n => presenceEvent n (c.station n).presence .unreachable) :=
  stationsPass_becomes (val := fun n => { c.station n with presence := .unreachable }) fun d n _ _ hn => by
    have h := setPresence_entryMoved n .unreachable d
    rw [hn] at h ⊢
    by_cases hp : (c.station n).kind = .legacy ∧ (c.station n).trunk = t
    · rw [if_pos hp, if_pos hp]
      simpa only [hp, true_and] using h
    · rw [if_neg hp, if_neg hp, if_neg fun hq => hp ⟨hq.1, hq.2.1⟩, ← hn]
      exact entryMoved_refl n d

theorem stationsBack_becomes (t : Nat) (c : Chip) : c.tableBecomes (stationsBack t c) (c.reachedBy t)
    (((List.range 255).filter fun n =>
      decide (n ≠ 0 ∧ (c.station n).kind = .legacy ∧ (c.station n).trunk = t ∧
        (c.station n).presence = .unreachable)).map
      fun n => presenceEvent n .unreachable (c.reachedBy t n).presence) :=
  stationsPass_becomes (val := fun n => { c.station n with presence := c.presenceBack (c.station n) })
    fun d n hmem hd hn => by
    have hback : d.presenceBack (c.station n) = c.presenceBack (c.station n) := by
      simp only [Chip.presenceBack, hd.limits]
    have h := setPresence_entryMoved n (c.presenceBack (c.station n)) d
    dsimp only
    rw [hn, hback]
    rw [hn] at h
    by_cases hp : (c.station n).kind = .legacy ∧ (c.station n).trunk = t ∧ (c.station n).presence = .unreachable
    · have hreached : c.reachedBy t n = { c.station n with presence := c.presenceBack (c.station n) } :=
        if_pos ⟨(mem_stationNumbers.mp hmem).1, (mem_stationNumbers.mp hmem).2, hp⟩
      have hne : c.presenceBack (c.station n) ≠ .unreachable := by
        unfold Chip.presenceBack
        split <;> decide
      rw [hp.2.2, if_pos hne.symm] at h
      rw [if_pos hp, if_pos hp, if_pos hp, hreached]
      exact h
    · rw [if_neg hp, if_neg hp, if_neg hp, ← hn]
      exact entryMoved_refl n d

/-! ### Passes over the job table -/

/-- Nothing but the job table, the queue and the event unit sets `d` apart from `c`. -/
def Chip.jobsMoved (c d : Chip) : Prop :=
  d = { c with path := d.path, evt := d.evt, prt := { c.prt with jobs := d.prt.jobs } }

/-- The job table is `jb` now, and the events `l` are told; nothing else has changed. -/
def Chip.jobsBecome (c d : Chip) (jb : Nat → Job) (l : List Logged) : Prop :=
  c.jobsMoved d ∧ c.only d l ∧ ∀ j, d.job j = jb j

theorem Chip.jobsMoved.trans {c d f : Chip} (h : c.jobsMoved d) (k : d.jobsMoved f) : c.jobsMoved f := by
  unfold Chip.jobsMoved at h k ⊢
  conv_lhs => rw [k, h]

theorem Chip.jobsMoved.ctl {c d : Chip} (h : c.jobsMoved d) : d.ctl = c.ctl := by rw [h]

theorem Chip.jobsMoved.stn {c d : Chip} (h : c.jobsMoved d) : d.stn = c.stn := by rw [h]

theorem Chip.jobsMoved.printer {c d : Chip} (h : c.jobsMoved d) (p : Nat) : d.printer p = c.printer p := by
  rw [h]
  rfl

theorem jobsBecome_refl (j : Nat) (c : Chip) : c.jobsBecome c (fun i => if i = j then c.job j else c.job i) [] :=
  ⟨rfl, only_of_path rfl rfl, fun i => by
    dsimp only
    split <;> simp_all⟩

theorem putJob_recordEvent_becomes (j : Nat) (v : Job) (e : Event) (c : Chip) :
    c.jobsBecome (recordEvent e (c.putJob j v)) (fun i => if i = j then v else c.job i) [e.logged] := by
  refine ⟨?_, only_trans rfl rfl (only_of_path rfl rfl) (recordEvent_only e (c.putJob j v)), fun i => ?_⟩
  · apply Chip.eq_of_units <;> simp [Chip.putJob]
  · rw [Chip.job_of_prt (recordEvent_prt _ _), job_putJob]

/-- A pass over the whole table that replaces the jobs which meet a test, with an event of each. -/
theorem jobsPass_become {step : Chip → Nat → Chip} {P : Nat → Prop} [DecidablePred P] {val : Nat → Job}
    {f : Nat → Logged} {c : Chip}
    (hstep : ∀ d, ∀ j < 32, c.jobsMoved d → d.job j = c.job j → d.jobsBecome (step d j)
      (fun i => if i = j then (if P j then val j else c.job j) else d.job i) (if P j then [f j] else [])) :
    c.jobsBecome ((List.range 32).foldl step c) (fun j => if j < 32 ∧ P j then val j else c.job j)
      (((List.range 32).filter fun j => decide (P j)).map f) := by
  obtain ⟨h1, ⟨-, -, h2⟩, h3⟩ := foldl_tells (get := Chip.job) (F := c.jobsMoved) (fun d j hj hd hwas => by
    obtain ⟨k1, k2, k3⟩ := hstep d j (List.mem_range.mp hj) hd hwas
    exact ⟨hd.trans k1, ⟨by rw [k1]; rfl, k1.ctl, k2⟩, k3⟩) List.nodup_range (c := c) rfl fun _ _ => rfl
  rw [flatMap_ite_singleton] at h2
  refine ⟨h1, h2, fun j => (h3 j).trans ?_⟩
  simp only [List.mem_range, ite_and]

/-! ### The jobs of a trunk suspended and resumed (R148, R149) -/

/-- A printer that is not READY is not served. -/
theorem serve_notReady (g : Give) {p : Nat} {c : Chip} (h : (c.printer p).state ≠ .ready) : serve g p c = c := by
  have hn : c.nextClaimant p = none := if_neg fun hc => h hc.2.1
  have hf : c.nextFed p = none := if_neg fun hc => h hc.2.1
  have he : feed p c = c := by
    change feedN p (63 + 1) c = c
    simp only [feedN, hf]
  change serveN g (63 + 1) p c = c
  simp only [serveN, hn, he]

theorem logged_jobSuspended (p j t : Nat) : (evJobSuspended p j t).logged = jobEvent 3 p j (octetPair t 0) 0 :=
  congrArg (Logged.plain .job 3 (wordNat (p * 256 + j)) (octetPair t 0)) octetPair_zero

theorem logged_jobResumed (p j : Nat) (cause : ResumeCause) :
    (evJobResumed p j cause).logged = jobEvent 4 p j (octetPair cause.code 0) 0 :=
  congrArg (Logged.plain .job 4 (wordNat (p * 256 + j)) (octetPair cause.code 0)) octetPair_zero

/-- The jobs of a connected trunk that is cut (R148). -/
theorem jobsCut_become (g : Give) {t : Nat} {old new : TrunkState} (ho : old.connected = true) (hn : new.cut = true)
    (c : Chip) : c.jobsBecome (jobsFollowTrunk g t old new c) (c.hungBy t)
      (((List.range 32).filter fun j => decide ((c.hungBy t j).state ≠ (c.job j).state)).map
        fun j => jobEvent 3 (c.job j).printer j (octetPair t 0) 0) := by
  have hfold : jobsFollowTrunk g t old new c =
      (List.range 32).foldl (fun c j => if c.suspendable t j then suspendJob t j c else c) c :=
    if_pos ⟨ho, .inl hn⟩
  have hsuspendable : ∀ j, c.suspendable t j = true ↔ (c.job j).state ≠ .free ∧ (c.job j).state ≠ .suspended ∧
      (c.job j).reason = none ∧ (c.station (c.job j).owner).kind = .legacy ∧ (c.station (c.job j).owner).trunk = t :=
    fun j => by simp [Chip.suspendable, and_assoc]
  have hfilter : ((List.range 32).filter fun j => decide ((c.hungBy t j).state ≠ (c.job j).state)) =
      (List.range 32).filter fun j => decide (c.suspendable t j = true) :=
    List.filter_congr fun j hj => by
      simp only [hsuspendable, Chip.hungBy, List.mem_range.mp hj, true_and, decide_eq_decide]
      split
      · next h => simp only [h, ne_eq, not_false_eq_true, and_self, iff_true]; exact fun k => h.2.1 k.symm
      · next h => simp only [h, ne_eq, not_true_eq_false]
  have h := jobsPass_become (c := c) (P := fun j => c.suspendable t j = true)
    (step := fun c j => if c.suspendable t j then suspendJob t j c else c)
    (val := fun j => { c.job j with
      state := .suspended, resume := (c.job j).state, trunk := t, idle := none
      grace := some (c.ctl.print.grace * 100) })
    (f := fun j => jobEvent 3 (c.job j).printer j (octetPair t 0) 0) fun d j _ hd hj => by
      have hsame : d.suspendable t j = c.suspendable t j := by
        simp only [Chip.suspendable, hj, Chip.station_of_stn hd.stn]
      dsimp only
      rw [hsame]
      split
      · rw [suspendJob, hj, hd.ctl, ← logged_jobSuspended]
        exact putJob_recordEvent_becomes ..
      · rw [← hj]
        exact jobsBecome_refl j d
  rw [hfold, hfilter]
  simp only [hsuspendable] at h ⊢
  exact h

/-- A SUSPENDED job resumed, `span` the idle countdown of one that enters PRINTING (R149). -/
def Job.back (span : Option Nat) (v : Job) : Job :=
  { v with
    state := v.resume, resume := .free, grace := none, trunk := 0
    idle := if v.resume = .printing then span else none }

/-- A job resumed that was not WAITING for a READY printer (R149). -/
theorem resumeJob_become (g : Give) (cause : ResumeCause) {j : Nat} {c : Chip}
    (h : (c.job j).resume = .waiting → (c.printer (c.job j).printer).state ≠ .ready) :
    c.jobsBecome (resumeJob g cause j c) (fun i => if i = j then (c.job j).back c.idleSpan else c.job i)
      [jobEvent 4 (c.job j).printer j (octetPair cause.code 0) 0] := by
  have hmoved := putJob_recordEvent_becomes j ((c.job j).back c.idleSpan) (evJobResumed (c.job j).printer j cause) c
  have hresume : resumeJob g cause j c =
      recordEvent (evJobResumed (c.job j).printer j cause) (c.putJob j ((c.job j).back c.idleSpan)) := by
    unfold resumeJob
    dsimp only
    split
    · next hw => exact serve_notReady g fun hready => h hw (by rw [← hmoved.1.printer]; exact hready)
    · rfl
  rw [hresume, ← logged_jobResumed]
  exact hmoved

/-- The jobs of a cut trunk that is released, none of them WAITING for a READY printer (R149). -/
theorem jobsBack_become (g : Give) {t : Nat} {old : TrunkState} (ho : old.cut = true) {c : Chip}
    (hserve : c.noneToServe t) : c.jobsBecome (jobsFollowTrunk g t old .trial c) (c.resumedBy t)
      (((List.range 32).filter fun j =>
        decide ((c.job j).state = .suspended ∧ (c.job j).reason = none ∧ (c.job j).trunk = t)).map
        fun j => jobEvent 4 (c.job j).printer j (octetPair 1 0) 0) := by
  have hold : old.connected = false := by
    revert ho
    cases old <;> decide
  have hfold : jobsFollowTrunk g t old .trial c = (List.range 32).foldl (fun c j =>
      if (c.job j).suspended ∧ (c.job j).trunk = t then resumeJob g .connected j c else c) c := by
    rw [jobsFollowTrunk, if_neg (by simp [hold]), if_pos ⟨.inl rfl, .inl ho⟩]
    rfl
  rw [hfold]
  refine jobsPass_become (val := fun j => (c.job j).back c.idleSpan) fun d j hlt hd hj => ?_
  have hsuspended : (c.job j).suspended = true ∧ (c.job j).trunk = t ↔
      (c.job j).state = .suspended ∧ (c.job j).reason = none ∧ (c.job j).trunk = t := by
    simp [Job.suspended, and_assoc]
  have hspan : d.idleSpan = c.idleSpan := by simp only [Chip.idleSpan, hd.ctl]
  rw [hj]
  by_cases hs : (c.job j).state = .suspended ∧ (c.job j).reason = none ∧ (c.job j).trunk = t
  · have h := resumeJob_become g .connected (c := d) (j := j) (by
      rw [hj, hd.printer]
      exact hserve j hlt hs)
    rw [hj, hspan] at h
    rw [if_pos (hsuspended.mpr hs), if_pos hs, if_pos hs]
    exact h
  · rw [if_neg fun h => hs (hsuspended.mp h), if_neg hs, if_neg hs, ← hj]
    exact jobsBecome_refl j d

/-! ### A trunk's change of state handed on (R123) -/

/-- Parts whose jobs a cut of trunk `t` suspends alike. -/
theorem hungBy_congr {c d : Chip} (hp : d.prt = c.prt) (hc : d.ctl.print = c.ctl.print)
    (hk : ∀ n, (d.station n).kind = (c.station n).kind) (ht : ∀ n, (d.station n).trunk = (c.station n).trunk) (t : Nat) :
    d.hungBy t = c.hungBy t := by
  funext j
  simp only [Chip.hungBy, Chip.job_of_prt hp, hc, hk, ht]

theorem resumedBy_congr {c d : Chip} (hp : d.prt = c.prt) (hc : d.ctl.print = c.ctl.print) (t : Nat) :
    d.resumedBy t = c.resumedBy t := by
  funext j
  simp only [Chip.resumedBy, Chip.idleSpan, Chip.job_of_prt hp, hc]

theorem noneToServe_congr {c d : Chip} (hp : d.prt = c.prt) {t : Nat} (h : c.noneToServe t) : d.noneToServe t := by
  simp only [Chip.noneToServe, Chip.suspendedFor, Chip.job_of_prt hp, Chip.printer_of_prt hp]
  exact h

/-- Trunk `t` has record `r` now, the table is `st` and the job table `jb`, the events `l` are told, and every line is
driven anew; nothing else has changed. -/
structure Chip.trunkFollowed (c d : Chip) (t : Nat) (r : Trunk) (st : Nat → Station) (jb : Nat → Job)
    (l : List Logged) : Prop where
  frame : d = { c with
    path := d.path
    evt := d.evt
    hlth := { c.hlth with trunks := d.hlth.trunks }
    stn := { c.stn with table := d.stn.table }
    prt := { c.prt with jobs := d.prt.jobs }
    rct := { c.rct with driven := d.rct.driven } }
  lines : d.linesDriven
  trunks : ∀ i, d.trunk i = if i = t then r else c.trunk i
  stations : ∀ n, d.station n = st n
  jobs : ∀ j, d.job j = jb j
  only : c.only d l

theorem logged_trunkState (t : Nat) (old new : TrunkState) (strikes : Nat) (cause : TrunkCause) :
    (evTrunkState t old new strikes cause).logged = trunkEvent t old new strikes cause.code := rfl

/-- A pass over the jobs whose triggers are received and not taken. -/
theorem receiving_become {f : Give → Chip → Chip} {c : Chip} {jb : Nat → Job} {l : List Logged}
    (h : (c.withRct { c.rct with received := [] }).jobsBecome
      (f receiveTrigger (c.withRct { c.rct with received := [] })) jb l) :
    c.jobsBecome (receiving f c).2 jb l := by
  obtain ⟨h1, h2, h3⟩ := h
  refine ⟨?_, ?_, h3⟩
  · unfold receiving
    dsimp only
    unfold Chip.jobsMoved at h1 ⊢
    conv_lhs => rw [h1]
    rfl
  · have hemptied : c.only (c.withRct { c.rct with received := [] }) [] := only_of_path rfl rfl
    have hjobs := only_trans (by rfl) (by rfl) hemptied h2
    exact ⟨hjobs.1, hjobs.2.1, hjobs.2.2⟩

/-- A trunk's record replaced and its change of state handed on, with no reaction in force: what the station unit
makes of the table, what the print unit makes of the jobs, the trunk's own event, and the lines driven (R123). -/
theorem moveTrunk_handed {t : Nat} {r : Trunk} {cause : TrunkCause} {c : Chip} (hn : c.noReactions)
    (hne : (c.trunk t).state ≠ r.state) (hcause : cause ≠ .unitRecord) {d e : Chip}
    (hd : stationsFollowTrunk t (c.trunk t).state r.state (c.putTrunk t r) = d)
    (he : (receiving (fun later => jobsFollowTrunk later t (c.trunk t).state r.state) d).2 = e) (hctl : e.ctl = c.ctl) :
    moveTrunk top t r cause c =
      redriveLines (recordEvent (evTrunkState t (c.trunk t).state r.state r.strikes cause) e) := by
  have hr : (c.putTrunk t r).trunk t = r := (trunk_putTrunk ..).trans (if_pos rfl)
  unfold moveTrunk
  dsimp only
  rw [if_neg hne]
  unfold handOnTrunk
  dsimp only
  rw [if_neg hcause, hr, hd, he]
  have hnf : (redriveLines (recordEvent (evTrunkState t (c.trunk t).state r.state r.strikes cause) e)).noReactions :=
    noReactions_of_ctl ((recordEvent_ctl ..).trans hctl) hn
  rw [top_of_noReactions hnf, foldl_top hnf]

/-- The same, for what the passes over the table and over the jobs come to. -/
theorem moveTrunk_followed {t : Nat} {r : Trunk} {cause : TrunkCause} {c : Chip} (hn : c.noReactions)
    (hne : (c.trunk t).state ≠ r.state) (hcause : cause ≠ .unitRecord) {st : Nat → Station} {jb : Nat → Job}
    {l m : List Logged}
    (hs : (c.putTrunk t r).tableBecomes (stationsFollowTrunk t (c.trunk t).state r.state (c.putTrunk t r)) st l)
    (hj : ∀ g (d : Chip), d.prt = c.prt → d.ctl = c.ctl → (∀ n, d.station n = st n) →
      d.jobsBecome (jobsFollowTrunk g t (c.trunk t).state r.state d) jb m) :
    c.trunkFollowed (moveTrunk top t r cause c) t r st jb
      (l ++ m ++ [trunkEvent t (c.trunk t).state r.state r.strikes cause.code]) := by
  obtain ⟨hsframe, hsonly, hst⟩ := hs
  generalize hd : stationsFollowTrunk t (c.trunk t).state r.state (c.putTrunk t r) = d at hsframe hsonly hst
  obtain ⟨hjframe, hjonly, hjb⟩ := receiving_become
    (f := fun later => jobsFollowTrunk later t (c.trunk t).state r.state) (hj receiveTrigger
      (d.withRct { d.rct with received := [] }) hsframe.prt hsframe.ctl hst)
  generalize he : (receiving (fun later => jobsFollowTrunk later t (c.trunk t).state r.state) d).2 = e
    at hjframe hjonly hjb
  have hctl : e.ctl = c.ctl := hjframe.ctl.trans hsframe.ctl
  rw [moveTrunk_handed hn hne hcause hd he hctl]
  set f := redriveLines (recordEvent (evTrunkState t (c.trunk t).state r.state r.strikes cause) e) with hf
  have hframe : f = { e with
      path := f.path, evt := f.evt, rct := { e.rct with driven := f.rct.driven } } := by
    rw [hf]
    apply Chip.eq_of_units <;> simp [redriveLines]
  have hstn : f.stn = d.stn := by rw [hframe]; exact hjframe.stn
  have hhlth : f.hlth = (c.putTrunk t r).hlth := by rw [hframe, hjframe, hsframe]
  have hprt : f.prt = e.prt := by rw [hframe]
  refine ⟨?_, redriveLines_driven _, fun i => ?_, fun n => ?_, fun j => ?_, ?_⟩
  · conv_lhs => rw [hframe, hjframe, hsframe]
    rw [hstn, hhlth, hprt]
    rfl
  · rw [Chip.trunk_of_hlth hhlth, trunk_putTrunk]
  · rw [Chip.station_of_stn hstn, hst]
  · rw [Chip.job_of_prt hprt, hjb]
  · have hput : c.only (c.putTrunk t r) [] := only_of_path rfl rfl
    have hdonly : c.only d l := only_trans (by rfl) (by rfl) hput hsonly
    have hbase : e.base = c.base := by rw [hjframe, hsframe]; rfl
    have heonly : c.only e (l ++ m) := only_trans hsframe.base hsframe.ctl hdonly hjonly
    have hevent := recordEvent_only (evTrunkState t (c.trunk t).state r.state r.strikes cause) e
    obtain ⟨k1, k2, k3⟩ := only_trans hbase hctl heonly hevent
    exact ⟨k1, k2, k3⟩

/-- A cut trunk released into TRIAL: its stations come back and its jobs resume (R58, R117, R121, R149). -/
theorem moveTrunk_released {t : Nat} {r : Trunk} {cause : TrunkCause} {c : Chip} (hn : c.noReactions)
    (hold : (c.trunk t).state.cut = true) (hr : r.state = .trial) (hcause : cause ≠ .unitRecord)
    (hserve : c.noneToServe t) :
    c.trunkFollowed (moveTrunk top t r cause c) t r (c.reachedBy t) (c.resumedBy t)
      (c.releaseEvents t r.strikes cause.code) := by
  have hne : (c.trunk t).state ≠ r.state := fun h => by
    rw [h, hr] at hold
    exact absurd hold (by decide)
  have hfollow : stationsFollowTrunk t (c.trunk t).state r.state (c.putTrunk t r) = stationsBack t (c.putTrunk t r) := by
    rw [stationsFollowTrunk, hr, if_neg fun h => absurd h.2 (by decide), if_pos ⟨hold, .inl rfl⟩]
  rw [Chip.releaseEvents, ← hr]
  refine moveTrunk_followed hn hne hcause (hfollow ▸ stationsBack_becomes t (c.putTrunk t r)) fun g d hp hc _ => ?_
  have h := jobsBack_become g hold (noneToServe_congr hp hserve)
  rw [resumedBy_congr hp (by rw [hc])] at h
  simp only [Chip.job_of_prt hp] at h
  rw [hr]
  exact h

theorem Station.cutBy_eq (c : Chip) (t n : Nat) : ∃ p, c.cutBy t n = { c.station n with presence := p } := by
  unfold Chip.cutBy
  split
  · exact ⟨_, rfl⟩
  · exact ⟨_, rfl⟩

/-- A connected trunk cut: its stations become UNREACHABLE and its jobs SUSPENDED (R58, R120, R148). -/
theorem moveTrunk_cut {t : Nat} {r : Trunk} {cause : TrunkCause} {c : Chip} (hn : c.noReactions)
    (hold : (c.trunk t).state.connected = true) (hr : r.state = .isolated) (hs : r.strikes = (c.trunk t).strikes)
    (hcause : cause ≠ .unitRecord) :
    c.trunkFollowed (moveTrunk top t r cause c) t r (c.cutBy t) (c.hungBy t) (c.cutEvents t cause.code) := by
  have hne : (c.trunk t).state ≠ r.state := fun h => by
    rw [h, hr] at hold
    exact absurd hold (by decide)
  have hcut : r.state.cut = true := by rw [hr]; rfl
  have hfollow : stationsFollowTrunk t (c.trunk t).state r.state (c.putTrunk t r) = stationsCut t (c.putTrunk t r) :=
    if_pos ⟨hold, hcut⟩
  rw [Chip.cutEvents, ← hr, ← hs]
  refine moveTrunk_followed hn hne hcause (hfollow ▸ stationsCut_becomes t (c.putTrunk t r)) fun g d hp hc hst => ?_
  have hread : ∀ n, ∃ p, d.station n = { c.station n with presence := p } := fun n => by
    rw [hst]
    exact Station.cutBy_eq c t n
  have h := jobsCut_become (t := t) g hold hcut d
  rw [hungBy_congr hp (by rw [hc]) (fun n => by obtain ⟨p, hp⟩ := hread n; rw [hp])
    (fun n => by obtain ⟨p, hp⟩ := hread n; rw [hp])] at h
  simp only [Chip.job_of_prt hp] at h
  exact h

/-- A trunk that stays connected: no station and no job follows its change (R58, R148, R149). -/
theorem moveTrunk_connected {t : Nat} {r : Trunk} {cause : TrunkCause} {c : Chip} (hn : c.noReactions)
    (hne : (c.trunk t).state ≠ r.state) (hold : (c.trunk t).state.connected = true) (hr : r.state.connected = true)
    (hcause : cause ≠ .unitRecord) : moveTrunk top t r cause c =
      redriveLines (recordEvent (evTrunkState t (c.trunk t).state r.state r.strikes cause) (c.putTrunk t r)) := by
  have hnotCut : ∀ s : TrunkState, s.connected = true → s.cut = false ∧ s ≠ .disabled := by
    intro s
    cases s <;> decide
  obtain ⟨hnew, hen⟩ := hnotCut _ hr
  obtain ⟨hc, hdis⟩ := hnotCut _ hold
  have hjobs : ∀ g d, jobsFollowTrunk g t (c.trunk t).state r.state d = d := fun g d => by
    simp [jobsFollowTrunk, hnew, hen, hc, hdis]
  refine moveTrunk_handed (d := c.putTrunk t r) hn hne hcause ?_ ?_ rfl
  · simp [stationsFollowTrunk, hnew, hc]
  · simp only [receiving, hjobs]
    rfl

/-! ### The expiries (R117 to R119) -/

theorem logged_strikesCleared (t n : Nat) :
    (evStrikesCleared t n).logged = .plain .trunk 2 (wordNat t) (octetPair n 0) 0 :=
  congrArg (Logged.plain .trunk 2 (wordNat t) (octetPair n 0)) octetPair_zero

/-- The trunk's record after a trial: IN_SERVICE below TW, else WATCH (R118, R119). -/
def Trunk.afterTrial (h : HealthRec) (r : Trunk) : Trunk := if r.score < h.tw then r.intoService h else r.intoWatch

theorem Trunk.afterTrial_eq (h : HealthRec) (r : Trunk) : r.afterTrial h =
    let after := if r.score < h.tw then TrunkState.inService else .watch
    { r with
      state := after
      countdown := none
      forced := false
      clearCountdown := if after = .watch ∨ r.strikes = 0 then none else some (h.clearInterval * 100) } := by
  unfold Trunk.afterTrial
  split <;> simp [Trunk.intoService, Trunk.intoWatch, ticksOf]

theorem afterTrial_state (h : HealthRec) (r : Trunk) :
    (r.afterTrial h).state = .inService ∨ (r.afterTrial h).state = .watch := by
  unfold Trunk.afterTrial
  split
  · exact .inl rfl
  · exact .inr rfl

/-- Settles O7: the ends of a hold, of a trial and of a clear interval. -/
theorem trunkExpiriesMoveTheTrunk : Obligations.TrunkExpiriesMoveTheTrunk := by
  unfold Obligations.TrunkExpiriesMoveTheTrunk
  intro k s hn r after
  refine ⟨fun hdue hserve => ?_, fun hdue => ?_, fun hclear => ?_⟩
  · have hstate : r.state = .isolated := by
      simp only [Chip.countdownDue, Bool.and_eq_true, decide_eq_true_eq] at hdue
      exact hdue.1
    have hrun : runHold top s.chip k = moveTrunk top k (r.intoTrial s.chip.ctl.health) .holdExpiry s.chip := if_pos hdue
    have h := moveTrunk_released (r := r.intoTrial s.chip.ctl.health) (cause := .holdExpiry) hn
      (by show r.state.cut = true; rw [hstate]; rfl) rfl (by decide) hserve
    rw [← hrun] at h
    have hctl : (runHold top s.chip k).ctl = s.chip.ctl := by rw [h.frame]
    refine ⟨_, rfl, ⟨rfl, rfl, rfl, rfl⟩, hctl, h.lines, ?_, h.trunks, h.stations, h.jobs, h.only⟩
    simp only [State.onChip_chip, Chip.over]
    rw [hctl]
    exact h.frame
  · have hstate : r.state = .trial := by
      simp only [Chip.countdownDue, Bool.and_eq_true, decide_eq_true_eq] at hdue
      exact hdue.1
    have hafter := r.afterTrial_eq s.chip.ctl.health
    have hne : r.state ≠ (r.afterTrial s.chip.ctl.health).state := fun h => by
      have hcon := afterTrial_state s.chip.ctl.health r
      rw [← h, hstate] at hcon
      exact absurd hcon (by decide)
    have hrun : runTrial top s.chip k = redriveLines (recordEvent (evTrunkState k .trial after r.strikes .trialExpiry)
        (s.chip.putTrunk k (r.afterTrial s.chip.ctl.health))) := by
      have hcon : (r.afterTrial s.chip.ctl.health).state.connected = true := by
        rcases afterTrial_state s.chip.ctl.health r with h | h <;> rw [h] <;> rfl
      have h := moveTrunk_connected hn hne (by rw [hstate]; rfl) hcon
        (by decide : TrunkCause.trialExpiry ≠ .unitRecord)
      rw [runTrial, if_pos hdue]
      refine h.trans ?_
      rw [hafter, hstate]
    refine ⟨_, rfl, ⟨rfl, rfl, rfl, rfl⟩, ?_⟩
    rw [State.onChip_chip, hrun]
    refine ⟨recordEvent_ctl .., redriveLines_driven _, ?_, fun i => ?_, ?_⟩
    · apply Chip.eq_of_units <;> simp [Chip.over, redriveLines, Chip.putTrunk]
    · refine (Chip.trunk_of_hlth (c := s.chip.putTrunk k (r.afterTrial s.chip.ctl.health)) (recordEvent_hlth ..) i).trans ?_
      rw [trunk_putTrunk, ite_not, hafter]
    · exact only_trans (by rfl) (by rfl) (only_of_path rfl rfl) (recordEvent_only _ (s.chip.putTrunk k _))
  · have hrun : runClear s.chip k = recordEvent (evStrikesCleared k r.strikes)
        (s.chip.putTrunk k { r with strikes := 0, clearCountdown := none }) := if_pos hclear
    refine ⟨_, rfl, ⟨rfl, rfl, rfl, rfl⟩, ?_⟩
    rw [State.onChip_chip, hrun, ← logged_strikesCleared]
    refine ⟨recordEvent_ctl .., ?_, fun i => ?_, ?_⟩
    · apply Chip.eq_of_units <;> simp [Chip.over, Chip.putTrunk]
    · rw [Chip.trunk_of_hlth (recordEvent_hlth ..), trunk_putTrunk]
    · exact only_trans (by rfl) (by rfl) (only_of_path rfl rfl) (recordEvent_only _ (s.chip.putTrunk k _))

end Sys2Proof.Machine

/-! PROOF. ISOLATE_TRUNK and RELEASE_TRUNK (R120, R121): what a command's work and its reply leave together. -/

namespace Sys2Proof.Machine

/-! ### A command's work and its reply -/

/-- A command whose work tells the events `l`, and its reply after them. -/
theorem reply_did_only {c d : Chip} {l : List Logged} (hb : d.base = c.base) (h : c.only d l) (tag : Octet) (m : Nat)
    (x : Detail) (n : Nat) : c.did (reply tag m x n d) tag x n l := by
  obtain ⟨hgrew, ⟨hevt, hevent⟩, hother⟩ := h
  obtain ⟨hreplied, kgrew, ⟨kevt, kevent⟩, kcontrol, kframe, kprint⟩ := reply_did tag m x n d
  rw [replyWork_congr hb] at kcontrol
  refine ⟨hreplied, grew_trans hgrew kgrew, ⟨kevt.trans hevt, ?_⟩, formed_trans (hother _ (by decide)) kcontrol,
    formed_trans (hother _ (by decide)) kframe, formed_trans (hother _ (by decide)) kprint⟩
  have hforms := formed_trans (m := []) hevent kevent
  rwa [List.append_nil] at hforms

theorem argLow_struckAt (s : State) (o : Nat) : (s.struckAt o).argLow = (s.chip.staged 1).toNat % 256 := by
  simp [Chip.argLow, Chip.arg, loOctet]

/-- A trunk's change that a command makes, and the command's reply. -/
theorem trunkFollowed_reply {c d e : Chip} {t : Nat} {r : Trunk} {st : Nat → Station} {jb : Nat → Job} {l : List Logged}
    (h : c.trunkFollowed d t r st jb l) {tag : Octet} {m : Nat} (he : e = reply tag m .none 0 d) :
    c.did e tag .none 0 l ∧ (∀ i, e.trunk i = if i = t then r else c.trunk i) ∧
      (e.linesDriven ∧ e = { c.over e with
        hlth := { c.hlth with trunks := e.hlth.trunks }
        stn := { c.stn with table := e.stn.table }
        prt := { c.prt with jobs := e.prt.jobs }
        rct := { c.rct with driven := e.rct.driven } }) ∧
      (∀ n, e.station n = st n) ∧ ∀ j, e.job j = jb j := by
  have hover : e = d.over e := by
    rw [he]
    exact replyAfter_over ..
  have hframe := h.frame
  have hhlth : e.hlth = d.hlth := by rw [hover]; rfl
  have hstn : e.stn = d.stn := by rw [hover]; rfl
  have hprt : e.prt = d.prt := by rw [hover]; rfl
  have hrct : e.rct = d.rct := by rw [hover]; rfl
  refine ⟨?_, fun i => (Chip.trunk_of_hlth hhlth i).trans (h.trunks i), ⟨?_, ?_⟩,
    fun n => (Chip.station_of_stn hstn n).trans (h.stations n), fun j => (Chip.job_of_prt hprt j).trans (h.jobs j)⟩
  · rw [he]
    exact reply_did_only (by rw [hframe]; rfl) h.only ..
  · exact linesDriven_congr h.lines (by rw [hrct]) (by rw [hover]; rfl) (by rw [hhlth]) (by rw [hprt])
      fun l => by rw [Chip.line_of_rct hrct]; exact ⟨rfl, rfl⟩
  · conv_lhs => rw [hover, hframe]
    rw [hhlth, hstn, hprt, hrct]
    rfl

/-- A command whose work changes the trunk records only, and its reply. -/
theorem trunksFrom_reply {c d e : Chip} (h : c.trunksFrom d) {tag : Octet} {m : Nat} (he : e = reply tag m .none 0 d) :
    c.did e tag .none 0 [] ∧ (∀ i, e.trunk i = d.trunk i) ∧
      e = (c.over e).withHlth { c.hlth with trunks := e.hlth.trunks } := by
  have hover : e = d.over e := by
    rw [he]
    exact replyAfter_over ..
  have hhlth : e.hlth = d.hlth := by rw [hover]; rfl
  unfold Chip.trunksFrom at h
  refine ⟨?_, Chip.trunk_of_hlth hhlth, ?_⟩
  · rw [he]
    exact reply_did_of (by rw [h]; rfl) (by rw [h]; rfl) (by rw [h]; rfl) ..
  · conv_lhs => rw [hover, h]
    rw [hhlth]
    rfl

/-! ### The trunk commands (R120, R121) -/

/-- What a trunk's change hands on goes by the table, the jobs, the trunks and the working print record. -/
theorem follows_congr {c d : Chip} (hs : d.stn = c.stn) (hp : d.prt = c.prt) (hh : d.hlth = c.hlth)
    (hc : d.ctl.print = c.ctl.print) (k : Nat) :
    d.reachedBy k = c.reachedBy k ∧ d.resumedBy k = c.resumedBy k ∧ d.cutBy k = c.cutBy k ∧ d.hungBy k = c.hungBy k ∧
      d.releaseEvents k = c.releaseEvents k ∧ d.cutEvents k = c.cutEvents k := by
  have hst : ∀ n, d.station n = c.station n := Chip.station_of_stn hs
  have hreached : d.reachedBy k = c.reachedBy k := by
    funext n
    simp only [Chip.reachedBy, hst, hs]
  have hhung : d.hungBy k = c.hungBy k := hungBy_congr hp hc (fun n => by rw [hst]) (fun n => by rw [hst]) k
  refine ⟨hreached, resumedBy_congr hp hc k, ?_, hhung, ?_, ?_⟩
  · funext n
    simp only [Chip.cutBy, hst]
  · funext strikes cause
    simp only [Chip.releaseEvents, hreached, hst, Chip.job_of_prt hp, Chip.trunk_of_hlth hh]
  · funext cause
    simp only [Chip.cutEvents, hhung, hst, Chip.job_of_prt hp, Chip.trunk_of_hlth hh]

theorem isolateTrunk_absent {c : Chip} {k : Nat} (h : c.ctl.unit.nt ≤ k) (g : Give) (cause : TrunkCause) :
    isolateTrunk g cause k c = (.badIndex, c) :=
  if_pos h

theorem isolateTrunk_connected {c : Chip} {k : Nat} (h : c.up k) (g : Give) (cause : TrunkCause) :
    isolateTrunk g cause k c = (.none, moveTrunk g k { c.trunk k with
      state := .isolated, forced := true, countdown := none, clearCountdown := none } cause c) := by
  unfold isolateTrunk
  rw [if_neg (Nat.not_le.mpr h.1)]
  exact if_pos h.2

/-- A trunk cut already is forced when it is ISOLATED, and stays LOCKED_OUT (R120). -/
theorem isolateTrunk_cut {c : Chip} {k : Nat} (h : k < c.ctl.unit.nt) (hcut : (c.trunk k).state.cut = true) (g : Give)
    (cause : TrunkCause) : isolateTrunk g cause k c = (.none,
      if (c.trunk k).state = .isolated then c.putTrunk k { c.trunk k with forced := true, countdown := none } else c) := by
  have hcon : (c.trunk k).state.connected = false := by
    revert hcut
    cases (c.trunk k).state <;> decide
  unfold isolateTrunk
  rw [if_neg (Nat.not_le.mpr h)]
  dsimp only
  rw [hcon, if_neg Bool.false_ne_true]
  split <;> rfl

theorem releaseTrunk_absent {c : Chip} {k : Nat} (h : c.ctl.unit.nt ≤ k) (g : Give) (cause : TrunkCause) :
    releaseTrunk g cause k c = (.badIndex, c) :=
  if_pos h

theorem releaseTrunk_connected {c : Chip} {k : Nat} (h : c.up k) (g : Give) (cause : TrunkCause) :
    releaseTrunk g cause k c = (.notCut, c) := by
  unfold releaseTrunk
  rw [if_neg (Nat.not_le.mpr h.1)]
  dsimp only
  split
  · next hs => exact absurd h.2 (by rw [hs]; decide)
  · next hs => exact absurd h.2 (by rw [hs]; decide)
  · rfl

/-- A cut trunk is released into TRIAL, a LOCKED_OUT one with its strikes cleared (R121). -/
theorem releaseTrunk_cut {c : Chip} {k : Nat} (h : k < c.ctl.unit.nt) (hcut : (c.trunk k).state.cut = true) (g : Give)
    (cause : TrunkCause) : releaseTrunk g cause k c = (.none, moveTrunk g k (Trunk.intoTrial c.ctl.health
      { c.trunk k with strikes := if (c.trunk k).state = .lockedOut then 0 else (c.trunk k).strikes }) cause c) := by
  unfold releaseTrunk
  rw [if_neg (Nat.not_le.mpr h)]
  dsimp only
  have hstate : (c.trunk k).state = .isolated ∨ (c.trunk k).state = .lockedOut := by
    revert hcut
    cases (c.trunk k).state <;> decide
  split
  · next hs => rw [if_neg (by simp [hs])]
  · next hs => rw [if_pos hs]
  · next hi hl => exact (hstate.elim hi hl).elim

/-- Settles O41: refused below no trunk, cut by ISOLATE_TRUNK, released by RELEASE_TRUNK. -/
theorem trunkCommandsCutAndRelease : Obligations.TrunkCommandsCutAndRelease := by
  unfold Obligations.TrunkCommandsCutAndRelease
  intro tag s hs hrun hn c k r h set followed
  have harg : c.argLow = k := argLow_struckAt s 0
  have hunit : c.ctl.unit = s.chip.ctl.unit := struckAt_unit s 0
  have hnc : c.noReactions := by
    rw [Chip.noReactions, hunit]
    exact hn
  have htrunk : ∀ i, c.trunk i = s.chip.trunk i := Chip.trunk_of_hlth (strikeAt_hlth ..)
  have hprt : c.prt = s.chip.prt := strikeAt_prt ..
  obtain ⟨hreached, hresumed, hcutBy, hhung, hrelease, hcutEvents⟩ :=
    follows_congr (strikeAt_stn ..) hprt (strikeAt_hlth ..) (strikeAt_ctl_print ..) k (c := s.chip) (d := c)
  obtain ⟨ti, hti, hwi, hci⟩ := command_performed hs (k := .isolateTrunk) (decide_eq_true hrun) tag
  obtain ⟨tr, htr, hwr, hcr⟩ := command_performed hs (k := .releaseTrunk) (decide_eq_true hrun) tag
  have isolated : ∀ {x d}, isolateTrunk top .command k c = (x, d) → ti.chip = reply tag c.path.serial x 0 d := fun h => by
    rw [hci, performCommand, harg]
    exact answered_eq tag h
  have released : ∀ {x d}, releaseTrunk top .command k c = (x, d) → tr.chip = reply tag c.path.serial x 0 d := fun h => by
    rw [hcr, performCommand, harg]
    exact answered_eq tag h
  refine ⟨fun hnt => ?_, fun hnt hcon => ?_, fun hnt hcut => ?_⟩
  · rw [← hunit] at hnt
    exact ⟨⟨ti, hti, hwi, isolated (isolateTrunk_absent hnt ..) ▸ reply_refusedWith ..⟩,
      tr, htr, hwr, released (releaseTrunk_absent hnt ..) ▸ reply_refusedWith ..⟩
  · have hup : c.up k := ⟨hunit ▸ hnt, htrunk k ▸ hcon⟩
    refine ⟨⟨tr, htr, hwr, released (releaseTrunk_connected hup ..) ▸ reply_refusedWith ..⟩, ti, hti, hwi, ?_⟩
    have hmoved := moveTrunk_cut (r := { c.trunk k with
      state := .isolated, forced := true, countdown := none, clearCountdown := none }) (cause := .command) hnc hup.2 rfl
      rfl (by decide)
    rw [hcutBy, hhung, hcutEvents, htrunk] at hmoved
    obtain ⟨hdid, htr, hfollowed, hst, hjb⟩ := trunkFollowed_reply hmoved
      (isolated (isolateTrunk_connected hup ..) |>.trans (by rw [htrunk]))
    exact ⟨fun i => (htr i).trans (by rw [htrunk]), hfollowed, hst, hjb, hdid⟩
  · have hcutc : (c.trunk k).state.cut = true := htrunk k ▸ hcut
    have hntc : k < c.ctl.unit.nt := hunit ▸ hnt
    refine ⟨⟨ti, hti, hwi, ?_⟩, fun hserve => ⟨tr, htr, hwr, ?_⟩⟩
    · have hfrom : c.trunksFrom (if (c.trunk k).state = .isolated then
          c.putTrunk k { c.trunk k with forced := true, countdown := none } else c) := by
        split <;> rfl
      obtain ⟨hdid, htr, hframe⟩ := trunksFrom_reply hfrom (isolated (isolateTrunk_cut hntc hcutc ..))
      refine ⟨hdid, fun i => (htr i).trans ?_, hframe⟩
      rw [htrunk]
      split
      · rw [trunk_putTrunk, htrunk]
      · rw [htrunk]
        split
        · next hi => rw [hi]
        · rfl
    · have hmoved := moveTrunk_released (r := Trunk.intoTrial c.ctl.health { c.trunk k with
        strikes := if (c.trunk k).state = .lockedOut then 0 else (c.trunk k).strikes }) (cause := .command) hnc hcutc rfl
        (by decide) (noneToServe_congr hprt hserve)
      rw [hreached, hresumed, hrelease, htrunk] at hmoved
      obtain ⟨hdid, htr, hfollowed, hst, hjb⟩ := trunkFollowed_reply hmoved
        (released (releaseTrunk_cut hntc hcutc ..) |>.trans (by rw [htrunk]))
      have hhealth : c.ctl.health = s.chip.ctl.health := strikeAt_ctl_health ..
      refine ⟨fun i => (htr i).trans (by rw [htrunk, hhealth]; rfl), hfollowed, hst, hjb, hdid⟩

end Sys2Proof.Machine

/-! PROOF. SET_STATION, CLEAR_STATION and FREE_PROXY (R60, R61, R69, R77), and their wait for held frames (R62). -/

namespace Sys2Proof.Machine

/-! ### The proxy map (R69) -/

theorem mem_proxies {c : Chip} {m : Nat} : m ∈ c.proxies ↔ m ∈ List.range 255 ∧ m ≠ 0 ∧ (c.station m).kind = .proxy := by
  simp only [Chip.proxies, List.mem_filter, mem_stationNumbers, List.mem_range, decide_eq_true_eq]
  exact ⟨fun ⟨⟨h0, hr⟩, hk⟩ => ⟨hr, h0, hk⟩, fun ⟨hr, h0, hk⟩ => ⟨⟨h0, hr⟩, hk⟩⟩

/-- A slot of the map is held by an entry other than `n`. -/
abbrev Chip.slotHeld (c : Chip) (n k : Nat) : Prop :=
  ∃ m ∈ List.range 255, m ≠ 0 ∧ m ≠ n ∧ (c.station m).kind = .proxy ∧ (c.station m).slot = k

theorem unheld_iff {c : Chip} {n : Nat} (h : (c.station n).kind ≠ .proxy) (k : Nat) :
    (!(c.proxies.map fun m => (c.station m).slot).contains k) = true ↔ ¬ c.slotHeld n k := by
  simp only [Bool.not_eq_true', ← Bool.not_eq_true, List.contains_iff_mem, List.mem_map, mem_proxies, Chip.slotHeld]
  exact not_congr ⟨fun ⟨m, ⟨hr, h0, hk⟩, hs⟩ => ⟨m, hr, h0, fun hm => h (hm ▸ hk), hk, hs⟩,
    fun ⟨m, hr, h0, _, hk, hs⟩ => ⟨m, ⟨hr, h0, hk⟩, hs⟩⟩

theorem freeSlot_none_iff {c : Chip} {n : Nat} (h : (c.station n).kind ≠ .proxy) :
    c.freeSlot = none ↔ ∀ k ∈ List.range 64, c.slotHeld n k := by
  simp only [Chip.freeSlot, lowest, List.find?_eq_none, unheld_iff h, not_not]
  rfl

theorem lowest_eq_some {n k : Nat} {f : Nat → Bool} (hk : k < n) (h : f k = true) (hl : ∀ i < k, f i = false) :
    lowest n f = some k :=
  List.find?_range_eq_some.mpr ⟨h, List.mem_range.mpr hk, fun i hi => by rw [hl i hi]; rfl⟩

theorem freeSlot_eq_some {c : Chip} {n k : Nat} (h : (c.station n).kind ≠ .proxy) (hk : k < 64)
    (hfree : ¬ c.slotHeld n k) (hl : ∀ i < k, c.slotHeld n i) : c.freeSlot = some k :=
  lowest_eq_some hk ((unheld_iff h k).mpr hfree) fun i hi =>
    Bool.eq_false_iff.mpr fun hi' => (unheld_iff h i).mp hi' (hl i hi)

/-- The entry's own slot counts as free once it is emptied. -/
theorem slotHeld_emptyStation (c : Chip) (n k : Nat) : (emptyStation n c).slotHeld n k ↔ c.slotHeld n k := by
  have hother : ∀ m, m ≠ n → (emptyStation n c).station m = c.station m := fun m hm =>
    (station_putStation n m _ c).trans (if_neg hm)
  refine exists_congr fun m => and_congr_right fun _ => and_congr_right fun _ => and_congr_right fun hm => ?_
  rw [hother m hm]

/-! ### The refusals (R60) -/

/-- SET_STATION's detail in R60's order, NONE where it is not refused. -/
def Chip.setRefusal (c : Chip) (a1 a2 a3 a4 : Word) : Detail :=
  let n := a1.toNat % 256
  let x := addrOf a2 a3 a4
  let kind := bitsOf a1 8 2
  let e := c.station n
  if n = 0 ∨ n = 255 then .badIndex
  else if kind ≠ 1 ∧ kind ≠ 2 then .badKind
  else if e.kind = .unit then .badIndex
  else if e.openJob ≠ none then .jobOpen
  else if kind = 1 ∧ c.ctl.unit.nt ≤ a2.toNat then .badIndex
  else if kind = 2 ∧ x.toNat / 256 = c.ctl.unit.aliasBase.toNat / 256 then .aliasAddress
  else if kind = 2 ∧ (∃ m ∈ List.range 255, m ≠ 0 ∧ m ≠ n ∧ (c.station m).kind = .proxy ∧ (c.station m).addr = x) then
    .duplicateAddress
  else if kind = 2 ∧ bitOf a1 15 = false ∧ n ∉ c.ctl.unit.proxyRange then .badIndex
  else if kind = 2 ∧ e.kind ≠ .proxy ∧ (∀ k ∈ List.range 64, c.slotHeld n k) then .badIndex
  else .none

/-- A detail as the model's refusal: NONE is no refusal. -/
def refusalOf (d : Detail) : Option Detail := if d = .none then none else some d

/-- One condition of a refusal's order, and what follows it. -/
theorem refusal_ite {p q : Prop} [Decidable p] [Decidable q] {r : Option Detail} {x d : Detail} (hx : x ≠ .none)
    (h : p ↔ q) (hr : ¬ q → r = refusalOf d) : (if p then some x else r) = refusalOf (if q then x else d) := by
  by_cases hq : q
  · rw [if_pos (h.mpr hq), if_pos hq, refusalOf, if_neg hx]
  · rw [if_neg (mt h.mp hq), if_neg hq, hr hq]

theorem loOctet_toNat (w : Word) : (loOctet w).toNat = w.toNat % 256 := by
  simp [loOctet]

theorem setStationRefusal_eq (a1 a2 a3 a4 : Word) (c : Chip) :
    setStationRefusal a1 a2 a3 a4 c = refusalOf (c.setRefusal a1 a2 a3 a4) := by
  unfold setStationRefusal Chip.setRefusal
  simp only [loOctet_toNat, setKind]
  refine refusal_ite (by decide) Iff.rfl fun _ => refusal_ite (by decide) Iff.rfl fun hkind =>
    refusal_ite (by decide) Iff.rfl fun _ => refusal_ite (by decide) Option.isSome_iff_ne_none fun _ =>
    refusal_ite (by decide) ?_ fun _ => refusal_ite (by decide) ?_ fun _ => refusal_ite (by decide) ?_ fun _ =>
    refusal_ite (by decide) ?_ fun _ => refusal_ite (by decide) ?_ fun _ => rfl
  · refine and_congr_left' (Bool.not_eq_true' _ |>.to_iff.trans decide_eq_false_iff_not |>.trans ?_)
    exact ⟨fun h => (not_and_or.mp hkind).elim not_not.mp fun k => (k h).elim, fun h => by rw [h]; decide⟩
  · exact and_congr decide_eq_true_iff decide_eq_true_iff
  · refine and_congr decide_eq_true_iff ?_
    simp only [List.any_eq_true, mem_proxies, Bool.and_eq_true, decide_eq_true_iff, and_assoc]
    exact exists_congr fun m => and_congr_right fun _ => and_congr_right fun _ => and_left_comm
  · refine and_congr decide_eq_true_iff (and_congr (Bool.not_eq_true' _).to_iff ?_)
    simp only [Bool.not_eq_true', List.contains_eq_mem, decide_eq_false_iff_not]
  · exact and_congr decide_eq_true_iff (and_congr_right fun hk => freeSlot_none_iff hk)

/-- CLEAR_STATION's detail. -/
def Chip.clearRefusal (c : Chip) (n : Nat) : Detail :=
  if n = 0 ∨ n = 255 ∨ (c.station n).kind = .unit then .badIndex
  else if (c.station n).openJob ≠ none then .jobOpen
  else .none

/-- FREE_PROXY's detail. -/
def Chip.freeRefusal (c : Chip) (n : Nat) : Detail :=
  if n = 0 ∨ n = 255 then .badIndex
  else if (c.station n).kind ≠ .proxy then .badKind
  else if (c.station n).openJob ≠ none then .jobOpen
  else .none

/-! ### The entries left (R60, R61, R77) -/

theorem logged_stationSet (n : Nat) (k : Kind) (pinned : Bool) : (evStationSet n k pinned).logged =
    .plain .station 7 (wordNat n) (octetPair k.code (if pinned then 1 else 0)) 0 := by
  cases pinned <;> exact congrArg (Logged.plain .station 7 (wordNat n) (octetPair k.code _)) octetPair_zero

theorem logged_stationCleared (n : Nat) (k : Kind) :
    (evStationCleared n k).logged = .plain .station 8 (wordNat n) (octetPair k.code 0) 0 :=
  congrArg (Logged.plain .station 8 (wordNat n) (octetPair k.code 0)) octetPair_zero

theorem logged_proxyFreed (n : Nat) (x : NewAddr) (r : FreeReason) :
    (evProxyFreed n x r).logged = .pair 4 (wordNat n) (octetPair r.code 0) 0 x := by
  exact congrArg (Logged.pair 4 (wordNat n) (octetPair r.code 0) · x) octetPair_zero

theorem freeProxyEntry_entryMoved (n : Nat) (r : FreeReason) (c : Chip) : c.entryMoved (freeProxyEntry n r c) n
    Station.blank [.pair 4 (wordNat n) (octetPair r.code 0) 0 (c.station n).addr] :=
  logged_proxyFreed .. ▸ putStation_recordEvent_entryMoved ..

theorem applySetStation_refused {a1 a2 a3 a4 : Word} {c : Chip} (h : c.setRefusal a1 a2 a3 a4 ≠ .none) :
    applySetStation a1 a2 a3 a4 c = (c.setRefusal a1 a2 a3 a4, c) := by
  simp only [applySetStation, setStationRefusal_eq, refusalOf, if_neg h]

/-- The LEGACY entry SET_STATION leaves. -/
def Chip.setLegacy (c : Chip) (a1 a2 : Word) : Station :=
  { Station.blank with
    kind := .legacy
    pinned := bitOf a1 15
    trunk := a2.toNat
    presence := if (c.trunk a2.toNat).state.cut then .unreachable else .active
    lastChange := c.stn.clock
    homeHearing := c.stn.clock }

/-- The PROXY entry SET_STATION leaves, in a slot of the map. -/
def proxySet (a1 : Word) (x : NewAddr) (slot : Nat) : Station :=
  { Station.blank with kind := .proxy, pinned := bitOf a1 15, addr := x, slot := slot }

/-- What SET_STATION records of the entry it sets. -/
def setEvent (a1 : Word) : Logged :=
  .plain .station 7 (wordNat (a1.toNat % 256)) (octetPair (bitsOf a1 8 2) (if bitOf a1 15 then 1 else 0)) 0

theorem setEvent_eq {a1 : Word} {k : Kind} (h : bitsOf a1 8 2 = k.code) :
    (evStationSet (a1.toNat % 256) k (bitOf a1 15)).logged = setEvent a1 := by
  rw [logged_stationSet, setEvent, h]

/-- An entry emptied and then set. -/
theorem set_entryMoved {a1 : Word} {k : Kind} (h : bitsOf a1 8 2 = k.code) (e : Station) (c : Chip) :
    c.entryMoved (recordEvent (evStationSet (a1.toNat % 256) k (bitOf a1 15))
      ((emptyStation (a1.toNat % 256) c).putStation (a1.toNat % 256) e)) (a1.toNat % 256) e [setEvent a1] :=
  (putStation_entryMoved ..).trans (setEvent_eq h ▸ putStation_recordEvent_entryMoved ..)

theorem applySetStation_legacy {a1 a2 a3 a4 : Word} {c : Chip} (h : c.setRefusal a1 a2 a3 a4 = .none)
    (hk : bitsOf a1 8 2 = 1) : ∃ d, applySetStation a1 a2 a3 a4 c = (.none, d) ∧
      c.entryMoved d (a1.toNat % 256) (c.setLegacy a1 a2) [setEvent a1] := by
  simp only [applySetStation, setStationRefusal_eq, refusalOf, if_pos h, setKind, if_pos hk, loOctet_toNat]
  exact ⟨_, rfl, set_entryMoved (k := .legacy) hk ..⟩

theorem applySetStation_proxy {a1 a2 a3 a4 : Word} {c : Chip} (h : c.setRefusal a1 a2 a3 a4 = .none)
    (hk : bitsOf a1 8 2 = 2) : ∃ d slot, applySetStation a1 a2 a3 a4 c = (.none, d) ∧
      c.entryMoved d (a1.toNat % 256) (proxySet a1 (addrOf a2 a3 a4) slot) [setEvent a1] ∧
      ∀ k < 64, ¬ c.slotHeld (a1.toNat % 256) k → (∀ i < k, c.slotHeld (a1.toNat % 256) i) → slot = k := by
  have h1 : bitsOf a1 8 2 ≠ 1 := by omega
  simp only [applySetStation, setStationRefusal_eq, refusalOf, if_pos h, setKind, if_neg h1, loOctet_toNat]
  refine ⟨_, (emptyStation (a1.toNat % 256) c).freeSlot.getD 0, rfl, set_entryMoved (k := .proxy) hk ..,
    fun k hk64 hfree hlow => ?_⟩
  have hempty : (emptyStation (a1.toNat % 256) c).station (a1.toNat % 256) = Station.blank :=
    (station_putStation ..).trans (if_pos rfl)
  rw [freeSlot_eq_some (hempty ▸ by decide) hk64 (mt (slotHeld_emptyStation ..).mp hfree)
    fun i hi => (slotHeld_emptyStation ..).mpr (hlow i hi), Option.getD_some]

/-- A set that is not refused is of one of two kinds. -/
theorem kind_of_setRefusal {a1 a2 a3 a4 : Word} {c : Chip} (h : c.setRefusal a1 a2 a3 a4 = .none) :
    bitsOf a1 8 2 = 1 ∨ bitsOf a1 8 2 = 2 := by
  by_contra hk
  rw [Chip.setRefusal] at h
  split at h
  · exact nomatch h
  · rw [if_pos (not_or.mp hk)] at h
    exact nomatch h

theorem applyClearStation_refused {a1 : Word} {c : Chip} (h : c.clearRefusal (a1.toNat % 256) ≠ .none) :
    applyClearStation a1 c = (c.clearRefusal (a1.toNat % 256), c) := by
  revert h
  simp only [applyClearStation, Chip.clearRefusal, loOctet_toNat, Option.isSome_iff_ne_none]
  split
  · exact fun _ => rfl
  · split
    · exact fun _ => rfl
    · exact fun h => absurd rfl h

theorem applyClearStation_cleared {a1 : Word} {c : Chip} (h : c.clearRefusal (a1.toNat % 256) = .none) :
    ∃ d, applyClearStation a1 c = (.none, d) ∧ c.entryMoved d (a1.toNat % 256)
      (if (c.station (a1.toNat % 256)).kind = .empty then c.station (a1.toNat % 256) else Station.blank)
      (if (c.station (a1.toNat % 256)).kind = .empty then []
        else [.plain .station 8 (wordNat (a1.toNat % 256)) (octetPair (c.station (a1.toNat % 256)).kind.code 0) 0]) := by
  revert h
  simp only [applyClearStation, Chip.clearRefusal, loOctet_toNat, Option.isSome_iff_ne_none]
  split
  · exact nofun
  · split
    · exact nofun
    · intro _
      split
      · exact ⟨c, rfl, entryMoved_refl ..⟩
      · exact ⟨_, rfl, logged_stationCleared .. ▸ putStation_recordEvent_entryMoved ..⟩

theorem applyFreeProxy_refused {a1 : Word} {c : Chip} (h : c.freeRefusal (a1.toNat % 256) ≠ .none) :
    applyFreeProxy a1 c = (c.freeRefusal (a1.toNat % 256), c) := by
  revert h
  simp only [applyFreeProxy, Chip.freeRefusal, loOctet_toNat, Option.isSome_iff_ne_none]
  split
  · exact fun _ => rfl
  · split
    · exact fun _ => rfl
    · split
      · exact fun _ => rfl
      · exact fun h => absurd rfl h

theorem applyFreeProxy_freed {a1 : Word} {c : Chip} (h : c.freeRefusal (a1.toNat % 256) = .none) :
    applyFreeProxy a1 c = (.none, freeProxyEntry (a1.toNat % 256) .command c) := by
  revert h
  simp only [applyFreeProxy, Chip.freeRefusal, loOctet_toNat, Option.isSome_iff_ne_none]
  split
  · exact nofun
  · split
    · exact nofun
    · split
      · exact nofun
      · exact fun _ => rfl

/-- A station command changes its own entry at most, with one event at most, and nothing where it is refused. -/
theorem applyStation_entryMoved (op : StationCommand) (a1 a2 a3 a4 : Word) (c : Chip) : ∃ x d e l,
    applyStation op a1 a2 a3 a4 c = (x, d) ∧ c.entryMoved d (a1.toNat % 256) e l ∧ l.length ≤ 1 ∧
      (x ≠ .none → d = c ∧ l = []) := by
  have refused : ∀ {x}, applyStation op a1 a2 a3 a4 c = (x, c) → ∃ x d e l, applyStation op a1 a2 a3 a4 c = (x, d) ∧
      c.entryMoved d (a1.toNat % 256) e l ∧ l.length ≤ 1 ∧ (x ≠ .none → d = c ∧ l = []) := fun h =>
    ⟨_, c, _, [], h, entryMoved_refl .., Nat.zero_le 1, fun _ => ⟨rfl, rfl⟩⟩
  cases op with
  | set =>
    by_cases h : c.setRefusal a1 a2 a3 a4 = .none
    · obtain hk | hk := kind_of_setRefusal h
      · obtain ⟨d, hd, hmoved⟩ := applySetStation_legacy h hk
        exact ⟨_, d, _, _, hd, hmoved, le_rfl, fun hx => absurd rfl hx⟩
      · obtain ⟨d, _, hd, hmoved, -⟩ := applySetStation_proxy h hk
        exact ⟨_, d, _, _, hd, hmoved, le_rfl, fun hx => absurd rfl hx⟩
    · exact refused (applySetStation_refused h)
  | clear =>
    by_cases h : c.clearRefusal (a1.toNat % 256) = .none
    · obtain ⟨d, hd, hmoved⟩ := applyClearStation_cleared h
      exact ⟨_, d, _, _, hd, hmoved, by split <;> simp, fun hx => absurd rfl hx⟩
    · exact refused (applyClearStation_refused h)
  | freeProxy =>
    by_cases h : c.freeRefusal (a1.toNat % 256) = .none
    · exact ⟨_, _, _, _, applyFreeProxy_freed h, freeProxyEntry_entryMoved .., le_rfl, fun hx => absurd rfl hx⟩
    · exact refused (applyFreeProxy_refused h)

/-! ### The command taken, at once or after a wait (R62) -/

/-- A command that changes one entry at most, and its reply. -/
theorem entryMoved_reply {c d f : Chip} {n : Nat} {e : Station} {l : List Logged} (h : c.entryMoved d n e l) {tag : Octet}
    {m : Nat} {x : Detail} (hf : f = reply tag m x 0 d) : c.did f tag x 0 l ∧
      f = (c.over f).withStn { c.stn with table := f.stn.table } ∧ ∀ k, f.station k = if k = n then e else c.station k := by
  have hover : f = d.over f := by
    rw [hf]
    exact replyAfter_over ..
  have hstn : f.stn = d.stn := by rw [hover]; rfl
  obtain ⟨hframe, ⟨hgrew, hother⟩, hlogs, hst⟩ := h
  refine ⟨?_, ?_, fun k => (Chip.station_of_stn hstn k).trans (hst k)⟩
  · rw [hf]
    exact reply_did_only (by rw [hframe]; rfl) ⟨hgrew, hlogs, hother⟩ ..
  · conv_lhs => rw [hover, hframe]
    rw [hstn]
    rfl

theorem framesFor_congr {c d : Chip} (hf : d.frm = c.frm) (hs : d.stn = c.stn) (hu : d.ctl.unit = c.ctl.unit) (e : Engine)
    (n : Nat) : d.framesFor e n = c.framesFor e n := by
  have hheld : d.held e = c.held e := by cases e <;> simp only [Chip.held, hf]
  have hrefers : ∀ v, d.refersTo e n v = c.refersTo e n v := fun v => by
    cases e <;> simp only [Chip.refersTo, hu, Chip.station_of_stn hs]
  simp only [Chip.framesFor, hheld, hrefers]

theorem framesFor_struckAt (s : State) (o : Nat) (e : Engine) (n : Nat) :
    (s.struckAt o).framesFor e n = s.chip.framesFor e n :=
  framesFor_congr (strikeAt_frm ..) (strikeAt_stn ..) (struckAt_unit ..) e n

theorem framesFor_of_none {c : Chip} {e : Engine} (h : ∀ v ∈ c.held e, v.phase ≠ .heldWaiting) (n : Nat) :
    c.framesFor e n = [] := by
  unfold Chip.framesFor
  split
  · rfl
  · refine List.map_eq_nil_iff.mpr (List.filter_eq_nil_iff.mpr fun v hv => ?_)
    simp [h v hv]

/-- The frames a station command taken in this state waits for (R62). -/
def State.waitedFor (s : State) : List Nat :=
  s.chip.framesFor .coax ((s.chip.staged 1).toNat % 256) ++ s.chip.framesFor .pair ((s.chip.staged 1).toNat % 256)

theorem takeStation_struckAt (op : StationCommand) (tag : Octet) (s : State) : takeStation op tag (s.struckAt 0) =
    if s.waitedFor.isEmpty then
      answered tag (applyStation op (s.chip.staged 1) (s.chip.staged 2) (s.chip.staged 3) (s.chip.staged 4)) (s.struckAt 0)
    else (s.struckAt 0).setCommand (some
      { tag := tag
        phase := .stationWait op (s.chip.staged 1) (s.chip.staged 2) (s.chip.staged 3) (s.chip.staged 4) s.waitedFor }) := by
  simp only [takeStation, argLow_struckAt, framesFor_struckAt, Chip.arg, struckAt_staged, State.waitedFor]
  rfl

theorem stillHeld_iff (c : Chip) (frames : List Nat) : frames.any c.stillHeld = true ↔
    ∃ e, ∃ v ∈ c.held e, v.id ∈ frames ∧ v.phase = .heldWaiting := by
  simp only [List.any_eq_true, Chip.stillHeld, List.mem_append, Bool.and_eq_true, decide_eq_true_eq]
  constructor
  · rintro ⟨i, hi, v, hv, rfl, hp⟩
    exact hv.elim (fun h => ⟨.coax, v, h, hi, hp⟩) fun h => ⟨.pair, v, h, hi, hp⟩
  · rintro ⟨e, v, hv, hi, hp⟩
    cases e with
    | coax => exact ⟨v.id, hi, v, .inl hv, rfl, hp⟩
    | pair => exact ⟨v.id, hi, v, .inr hv, rfl, hp⟩

/-- Settles O38: with no frame waited for, each command is answered at its taking. -/
theorem stationCommandsSetAndEmptyEntries : Obligations.StationCommandsSetAndEmptyEntries := by
  unfold Obligations.StationCommandsSetAndEmptyEntries
  intro tag s hs hm hheld c a1 n x kind pinned e holds refusal clearRefusal freeRefusal changed
  have hst : ∀ m, c.station m = s.chip.station m := Chip.station_of_stn (strikeAt_stn ..)
  have hset : c.setRefusal a1 (s.chip.staged 2) (s.chip.staged 3) (s.chip.staged 4) = refusal := by
    simp only [Chip.setRefusal, Chip.slotHeld, hst, c, struckAt_unit]
    rfl
  have hclear : c.clearRefusal n = clearRefusal := by simp only [Chip.clearRefusal, hst, clearRefusal, e]
  have hfree : c.freeRefusal n = freeRefusal := by simp only [Chip.freeRefusal, hst, freeRefusal, e]
  have hnone : s.waitedFor.isEmpty = true := by
    rw [State.waitedFor, framesFor_of_none (hheld .coax), framesFor_of_none (hheld .pair)]
    rfl
  have taken : ∀ {op y d} {t : State}, t.chip = takeStation op tag c →
      applyStation op a1 (s.chip.staged 2) (s.chip.staged 3) (s.chip.staged 4) c = (y, d) →
      t.chip = reply tag c.path.serial y 0 d := fun ht hd => by
    rw [ht, takeStation_struckAt, if_pos hnone]
    exact answered_eq tag hd
  have left : ∀ {t : State} {d : Chip} {e' l}, c.entryMoved d n e' l → t.chip = reply tag c.path.serial .none 0 d →
      changed t l ∧ t.chip.station n = e' := fun hmoved ht => by
    obtain ⟨hdid, hframe, hstations⟩ := entryMoved_reply hmoved ht
    exact ⟨⟨hdid, hframe, fun m hm => (hstations m).trans ((if_neg hm).trans (hst m))⟩,
      (hstations n).trans (if_pos rfl)⟩
  obtain ⟨t1, ht1, hw1, hc1⟩ := command_performed hs (k := .setStation) (decide_eq_true hm) tag
  obtain ⟨t2, ht2, hw2, hc2⟩ := command_performed hs (k := .clearStation) (decide_eq_true hm) tag
  obtain ⟨t3, ht3, hw3, hc3⟩ := command_performed hs (k := .freeProxy) (decide_eq_true hm) tag
  refine ⟨fun h => ⟨t1, ht1, hw1, ?_⟩, fun h => ⟨t1, ht1, hw1, ?_⟩, fun h => ⟨t2, ht2, hw2, ?_⟩,
    fun h => ⟨t2, ht2, hw2, ?_⟩, fun h => ⟨t3, ht3, hw3, ?_⟩, fun h => ⟨t3, ht3, hw3, ?_⟩⟩
  · rw [← hset] at h ⊢
    exact taken hc1 (applySetStation_refused h) ▸ reply_refusedWith ..
  · rw [← hset] at h
    obtain hk | hk := kind_of_setRefusal h
    · obtain ⟨d, hd, hmoved⟩ := applySetStation_legacy h hk
      obtain ⟨hchanged, hentry⟩ := left hmoved (taken hc1 hd)
      refine ⟨hchanged, fun _ => hentry.trans ?_, fun h2 => absurd (hk.symm.trans h2) (by decide)⟩
      rw [Chip.setLegacy, show c.stn = s.chip.stn from strikeAt_stn ..,
        Chip.trunk_of_hlth (show c.hlth = s.chip.hlth from strikeAt_hlth ..)]
    · obtain ⟨d, slot, hd, hmoved, hslot⟩ := applySetStation_proxy h hk
      obtain ⟨hchanged, hentry⟩ := left hmoved (taken hc1 hd)
      refine ⟨hchanged, fun h1 => absurd (hk.symm.trans h1) (by decide), fun _ => ?_⟩
      rw [hentry]
      refine ⟨rfl, fun k hk64 hn hl => hslot k hk64 ?_ fun i hi => ?_⟩
      · simpa only [Chip.slotHeld, hst] using hn
      · simpa only [Chip.slotHeld, hst] using hl i hi
  · rw [← hclear] at h ⊢
    exact taken hc2 (applyClearStation_refused h) ▸ reply_refusedWith ..
  · rw [← hclear] at h
    obtain ⟨d, hd, hmoved⟩ := applyClearStation_cleared h
    rw [hst] at hmoved
    exact left hmoved (taken hc2 hd)
  · rw [← hfree] at h ⊢
    exact taken hc3 (applyFreeProxy_refused h) ▸ reply_refusedWith ..
  · rw [← hfree] at h
    have hmoved := freeProxyEntry_entryMoved n .command c
    rw [hst] at hmoved
    exact left hmoved (taken hc3 (applyFreeProxy_freed h))

/-- A waiting station command once its frames have left HELD_WAITING (R62). -/
theorem applyStationCommand_applied {s : State} {tag : Octet} {op : StationCommand} {a1 a2 a3 a4 : Word}
    {frames : List Nat} (h : s.chip.ctl.command = some { tag := tag, phase := .stationWait op a1 a2 a3 a4 frames })
    (hleft : ¬ ∃ e, ∃ v ∈ s.chip.held e, v.id ∈ frames ∧ v.phase = .heldWaiting) {x : Detail} {d : Chip}
    (hd : applyStation op a1 a2 a3 a4 s.chip = (x, d)) : ∃ t, exec .applyStationCommand s = .next t ∧
      s.outsideKept t ∧ t.chip = reply tag s.chip.path.serial x 0 d := by
  refine ⟨_, rfl, ⟨rfl, ⟨rfl, rfl, rfl⟩⟩, ?_⟩
  rw [State.onChip_chip, applyWaiting, h]
  exact (if_neg (mt (stillHeld_iff ..).mp hleft)).trans (answered_eq tag hd)

/-- Settles O39: the command waits for the frames named at its taking, and is applied when none is left. -/
theorem stationCommandsWaitForHeldFrames : Obligations.StationCommandsWaitForHeldFrames := by
  unfold Obligations.StationCommandsWaitForHeldFrames
  intro tag s
  constructor
  · intro hs hm n frames waits hframes
    have hwaits : ¬ s.waitedFor.isEmpty = true := mt List.isEmpty_iff.mp hframes
    have waited : ∀ {op} {t : State}, t.chip = takeStation op tag (s.struckAt 0) → t.chip = (s.struckAt 0).setCommand (some
        { tag := tag
          phase := .stationWait op (s.chip.staged 1) (s.chip.staged 2) (s.chip.staged 3) (s.chip.staged 4) frames }) :=
      fun ht => ht.trans ((takeStation_struckAt ..).trans (if_neg hwaits))
    obtain ⟨t1, ht1, hw1, hc1⟩ := command_performed hs (k := .setStation) (decide_eq_true hm) tag
    obtain ⟨t2, ht2, hw2, hc2⟩ := command_performed hs (k := .clearStation) (decide_eq_true hm) tag
    obtain ⟨t3, ht3, hw3, hc3⟩ := command_performed hs (k := .freeProxy) (decide_eq_true hm) tag
    exact ⟨⟨t1, ht1, hw1, waited hc1⟩, ⟨t2, ht2, hw2, waited hc2⟩, ⟨t3, ht3, hw3, waited hc3⟩⟩
  · intro op a1 a2 a3 a4 frames hc still n
    refine ⟨fun h => ?_, fun h => ?_, ?_⟩
    · have hstay : applyWaiting s.chip = s.chip := by
        rw [applyWaiting, hc]
        exact if_pos ((stillHeld_iff ..).mpr h)
      exact congrArg (fun c => Host.Outcome.next (s.withChip c)) hstay
    · obtain ⟨x, d, e, l, hd, hmoved, hlen, hrefused⟩ := applyStation_entryMoved op a1 a2 a3 a4 s.chip
      obtain ⟨t, ht, hout, hreply⟩ := applyStationCommand_applied hc h hd
      obtain ⟨hdid, hframe, hst⟩ := entryMoved_reply hmoved hreply
      refine ⟨t, x, l, ht, hout, hdid, hlen, fun hx => ?_, hframe, fun m hm => (hst m).trans (if_neg hm)⟩
      obtain ⟨rfl, rfl⟩ := hrefused hx
      exact ⟨rfl, hreply ▸ replyAfter_over ..⟩
    · rintro h rfl hn0 hn255 hkind hopen
      have hnone : s.chip.clearRefusal n = .none := by
        simp [Chip.clearRefusal, hn0, hn255, hkind, hopen]
      obtain ⟨d, hd, hmoved⟩ := applyClearStation_cleared hnone
      obtain ⟨t, ht, hout, hreply⟩ := applyStationCommand_applied hc h hd
      rw [show a1.toNat % 256 = n from rfl, hkind] at hmoved
      exact ⟨t, ht, hout, entryMoved_reply hmoved hreply⟩

end Sys2Proof.Machine

/-! PROOF. A second boundary (R51, R56, R57, R74): the ages advanced, then the limits of the LEGACY entries, then those of
the PROXY entries, each pass entry by entry. -/

namespace Sys2Proof.Machine

/-! ### An entry's age and its limits -/

/-- The age advanced (R56). -/
def Station.older (e : Station) : Station := { e with age := min 65535 (e.age + 1) }

/-- An entry that is not pinned and has come to a limit that is not 0. -/
abbrev Station.past (e : Station) (limit : Nat) : Prop := limit ≠ 0 ∧ e.pinned = false ∧ limit ≤ e.age

/-- An entry under the silence and removal limits (R57). -/
def Station.underLegacy (r : AgeLimits) (e : Station) : Station :=
  if e.kind ≠ .legacy then e
  else if e.past r.removal then Station.blank
  else if e.presence = .active ∧ r.silence ≤ e.age then { e with presence := .silent }
  else e

/-- What is recorded of entry `n` under the silence and removal limits. -/
def Station.legacyEvents (r : AgeLimits) (n : Nat) (e : Station) : List Logged :=
  if e.kind ≠ .legacy then []
  else (if e.presence = .active ∧ r.silence ≤ e.age then [presenceEvent n .active .silent] else []) ++
    (if e.past r.removal then [.plain .station 6 (wordNat n) (octetPair e.trunk 0) 0] else [])

/-- An entry under the proxy free limit (R74). -/
def Station.underProxy (r : AgeLimits) (e : Station) : Station :=
  if e.kind = .proxy ∧ e.past r.proxyFree then Station.blank else e

/-- What is recorded of entry `n` under the proxy free limit. -/
def Station.proxyEvents (r : AgeLimits) (n : Nat) (e : Station) : List Logged :=
  if e.kind = .proxy ∧ e.past r.proxyFree then [.pair 4 (wordNat n) (octetPair 1 0) 0 e.addr] else []

theorem Station.underLegacy_openJob {r : AgeLimits} {e : Station} (h : e.openJob = none) :
    (e.underLegacy r).openJob = none := by
  unfold Station.underLegacy
  split <;> [exact h; split <;> [rfl; split <;> exact h]]

theorem logged_stationRemoved (n t : Nat) :
    (evStationRemoved n t).logged = .plain .station 6 (wordNat n) (octetPair t 0) 0 :=
  congrArg (Logged.plain .station 6 (wordNat n) (octetPair t 0)) octetPair_zero

/-- An active entry falls silent at the silence limit. -/
theorem silence_entryMoved (n : Nat) (limit : Nat) (c : Chip) : c.entryMoved
    (if (c.station n).presence = .active ∧ limit ≤ (c.station n).age then setPresence n .silent c else c) n
    (if (c.station n).presence = .active ∧ limit ≤ (c.station n).age then { c.station n with presence := .silent }
      else c.station n)
    (if (c.station n).presence = .active ∧ limit ≤ (c.station n).age then [presenceEvent n .active .silent] else []) :=
  entryMoved_ite fun h => by
    have hmoved := setPresence_entryMoved n .silent c
    rwa [h.1, if_pos (by decide)] at hmoved

theorem applyLegacyLimits_entryMoved (g : Give) {n : Nat} {c : Chip} (h : (c.station n).openJob = none) :
    c.entryMoved (applyLegacyLimits g n c) n ((c.station n).underLegacy c.stn.limits)
      ((c.station n).legacyEvents c.stn.limits n) := by
  have hsilence := silence_entryMoved n c.stn.limits.silence c
  unfold applyLegacyLimits Station.underLegacy Station.legacyEvents
  extract_lets e d
  change c.entryMoved d n _ _ at hsilence
  by_cases hk : e.kind ≠ .legacy
  · rw [if_pos hk, if_pos hk, if_pos hk]
    exact entryMoved_refl n c
  · rw [if_neg hk, if_neg hk, if_neg hk]
    have hlimits : d.stn.limits = c.stn.limits := hsilence.becomes.1.limits
    have hopen : (d.station n).openJob = none := by
      rw [hsilence.self]
      split <;> exact h
    by_cases hp : e.past c.stn.limits.removal
    · rw [hlimits, if_pos (by simpa using hp), if_pos hp, if_pos hp, abandonOpen_none hopen, ← logged_stationRemoved]
      exact hsilence.trans (putStation_recordEvent_entryMoved ..)
    · rw [hlimits, if_neg (by simpa using hp), if_neg hp, if_neg hp, List.append_nil]
      exact hsilence

theorem applyProxyLimit_entryMoved {n : Nat} {c : Chip} (h : (c.station n).openJob = none) :
    c.entryMoved (applyProxyLimit n c) n ((c.station n).underProxy c.stn.limits)
      ((c.station n).proxyEvents c.stn.limits n) := by
  have hmoved := entryMoved_ite (P := (c.station n).kind = .proxy ∧ (c.station n).past c.stn.limits.proxyFree)
    fun _ => freeProxyEntry_entryMoved n .age c
  simp only [applyProxyLimit, h, Bool.not_eq_true', true_and]
  exact hmoved

/-! ### The three passes -/

/-- A pass over the entries whose age advances. -/
theorem agedPass_becomes {step : Chip → Nat → Chip} {val : Station → Station} {ev : Nat → Station → List Logged}
    {aged : List Nat} (hl : aged.Nodup) {c : Chip} (hstep : ∀ d, ∀ n, c.tableMoved d → (d.station n).openJob = none →
      d.entryMoved (step d n) n (val (d.station n)) (ev n (d.station n)))
    (hopen : ∀ n, (c.station n).openJob = none) : c.tableBecomes (aged.foldl step c)
      (fun n => if n ∈ aged then val (c.station n) else c.station n) (aged.flatMap fun n => ev n (c.station n)) :=
  foldl_entryMoved (fun d n _ hd hn => by
    have h := hstep d n hd (hn ▸ hopen n)
    rwa [hn] at h) hl

/-- What a second boundary makes of the aged entries, by the limits in force. -/
theorem agedWork_becomes (g : Give) {c : Chip} {aged : List Nat} (hl : aged.Nodup)
    (hopen : ∀ n, (c.station n).openJob = none) :
    c.tableBecomes (aged.foldl (fun c n => applyProxyLimit n c) (aged.foldl (fun c n => applyLegacyLimits g n c)
        (aged.foldl (fun c n => c.putStation n { c.station n with age := satAdd 65535 (c.station n).age 1 }) c)))
      (fun n => if n ∈ aged then ((c.station n).older.underLegacy c.stn.limits).underProxy c.stn.limits else c.station n)
      ((aged.flatMap fun n => (c.station n).older.legacyEvents c.stn.limits n) ++
        aged.flatMap fun n => ((c.station n).older.underLegacy c.stn.limits).proxyEvents c.stn.limits n) := by
  have hages := agedPass_becomes (val := Station.older) (ev := fun _ _ => []) hl
    (step := fun c n => c.putStation n { c.station n with age := satAdd 65535 (c.station n).age 1 })
    (fun d n _ _ => putStation_entryMoved n (d.station n).older d) hopen
  generalize aged.foldl (fun c n => c.putStation n { c.station n with age := satAdd 65535 (c.station n).age 1 }) c = d1
    at hages
  have hopen1 : ∀ n, (d1.station n).openJob = none := fun n => by
    rw [hages.2.2]
    dsimp only
    split <;> exact hopen n
  have hlegacy := agedPass_becomes (val := Station.underLegacy d1.stn.limits)
    (ev := fun n => Station.legacyEvents d1.stn.limits n) hl (step := fun c n => applyLegacyLimits g n c)
    (fun d n hd h => by
      rw [← hd.limits]
      exact applyLegacyLimits_entryMoved g h) hopen1
  generalize aged.foldl (fun c n => applyLegacyLimits g n c) d1 = d2 at hlegacy
  have hopen2 : ∀ n, (d2.station n).openJob = none := fun n => by
    rw [hlegacy.2.2]
    dsimp only
    split
    · exact Station.underLegacy_openJob (hopen1 n)
    · exact hopen1 n
  have hproxy := agedPass_becomes (val := Station.underProxy d2.stn.limits)
    (ev := fun n => Station.proxyEvents d2.stn.limits n) hl (step := fun c n => applyProxyLimit n c)
    (fun d n hd h => by
      rw [← hd.limits]
      exact applyProxyLimit_entryMoved h) hopen2
  rw [hlegacy.1.limits, hages.1.limits] at hproxy
  rw [hages.1.limits] at hlegacy
  have h1 : ∀ n ∈ aged, d1.station n = (c.station n).older := fun n hn => (hages.2.2 n).trans (if_pos hn)
  have h2 : ∀ n ∈ aged, d2.station n = (c.station n).older.underLegacy c.stn.limits := fun n hn => by
    rw [hlegacy.2.2, ← h1 n hn]
    exact if_pos hn
  have hall := hages.trans (hlegacy.trans hproxy)
  rw [List.flatMap_eq_nil_iff.mpr fun _ _ => rfl, List.nil_append, List.flatMap_congr fun n hn => by rw [h1 n hn],
    List.flatMap_congr (l := aged) (f := fun n => (d2.station n).proxyEvents c.stn.limits n)
      fun n hn => by rw [h2 n hn]] at hall
  obtain ⟨hmoved, honly, hst⟩ := hall
  refine ⟨hmoved, honly, fun n => (hst n).trans ?_⟩
  dsimp only
  split
  · next hn => rw [h2 n hn]
  · next hn =>
    exact (hlegacy.2.2 n).trans ((if_neg hn).trans ((hages.2.2 n).trans (if_neg hn)))

/-! ### The table and the events as one second boundary gives them -/

theorem ages_iff (c : Chip) (n : Nat) : c.ages n = true ↔
    (c.station n).kind = .legacy ∧ c.trunkUp (c.station n).trunk = true ∨ (c.station n).kind = .proxy := by
  unfold Chip.ages
  dsimp only
  split <;> simp_all

theorem mem_aged {c : Chip} {n : Nat} : n ∈ stationNumbers.filter c.ages ↔ ¬ (n = 0 ∨ 255 ≤ n) ∧ c.ages n = true := by
  rw [List.mem_filter, mem_stationNumbers, not_or, not_le]

theorem underLegacy_kind {r : AgeLimits} {e : Station} (h : e.kind ≠ .proxy) : (e.underLegacy r).kind ≠ .proxy := by
  unfold Station.underLegacy
  split <;> [exact h; split <;> [decide; split <;> exact h]]

theorem underProxy_of_ne {r : AgeLimits} {e : Station} (h : e.kind ≠ .proxy) : e.underProxy r = e :=
  if_neg fun k => h k.1

theorem legacyEvents_of_ne {r : AgeLimits} {n : Nat} {e : Station} (h : e.kind ≠ .legacy) : e.legacyEvents r n = [] :=
  if_pos h

theorem proxyEvents_of_ne {r : AgeLimits} {n : Nat} {e : Station} (h : e.kind ≠ .proxy) : e.proxyEvents r n = [] :=
  if_neg fun k => h k.1

theorem underLegacy_of_ne {r : AgeLimits} {e : Station} (h : e.kind ≠ .legacy) : e.underLegacy r = e := if_pos h

theorem secondOf_eq (c : Chip) (n : Nat) : c.secondOf n = if n ∈ stationNumbers.filter c.ages then
    ((c.station n).older.underLegacy c.ctl.aging.limits).underProxy c.ctl.aging.limits else c.station n := by
  have hmem := mem_aged (c := c) (n := n)
  rw [ages_iff] at hmem
  unfold Chip.secondOf
  extract_lets e a past
  change _ ↔ _ ∧ (e.kind = .legacy ∧ c.trunkUp e.trunk = true ∨ e.kind = .proxy) at hmem
  change _ = if _ then (e.older.underLegacy c.ctl.aging.limits).underProxy c.ctl.aging.limits else e
  by_cases hn : n = 0 ∨ 255 ≤ n
  · rw [if_pos hn, if_neg fun h => (hmem.mp h).1 hn]
  · rw [if_neg hn]
    split
    · next hk =>
      by_cases hup : c.trunkUp e.trunk = false
      · rw [if_pos hup, if_neg fun h => by simp_all]
      · have hkind : e.older.kind = .legacy := hk
        rw [if_neg hup, if_pos (hmem.mpr ⟨hn, .inl ⟨hk, Bool.eq_true_of_not_eq_false hup⟩⟩),
          underProxy_of_ne (underLegacy_kind (hkind ▸ by decide)), Station.underLegacy, if_neg (not_not_intro hkind)]
        rfl
    · next hk =>
      have hkind : e.older.kind = .proxy := hk
      rw [if_pos (hmem.mpr ⟨hn, .inr hk⟩), underLegacy_of_ne (hkind ▸ by decide), Station.underProxy]
      simp only [hkind, true_and]
      rfl
    · next hl hp => exact (if_neg fun h => (hmem.mp h).2.elim (fun k => hl k.1) hp).symm

theorem underLegacy_blank_iff {r : AgeLimits} {e : Station} (h : e.kind = .legacy) :
    e.underLegacy r = Station.blank ↔ e.past r.removal := by
  rw [Station.underLegacy, if_neg (not_not_intro h)]
  split
  · next hp => exact iff_of_true rfl hp
  · next hp =>
    refine iff_of_false (fun hb => ?_) hp
    have hkind := congrArg Station.kind hb
    rw [apply_ite Station.kind, ite_self] at hkind
    exact nomatch h.symm.trans hkind

theorem underProxy_blank_iff {r : AgeLimits} {e : Station} (h : e.kind = .proxy) :
    e.underProxy r = Station.blank ↔ e.past r.proxyFree := by
  rw [Station.underProxy]
  split
  · next hp => exact iff_of_true rfl hp.2
  · next hp => exact iff_of_false (fun hb => nomatch h.symm.trans (congrArg Station.kind hb)) fun k => hp ⟨h, k⟩

/-- The events of the numbers of a pass, by a test of their own. -/
theorem passEvents_eq {ages : Nat → Bool} {ev f : Nat → List Logged} {P : Nat → Prop} [DecidablePred P]
    (h : ∀ n ∈ stationNumbers, (if ages n = true then ev n else []) = if P n then f n else []) :
    (stationNumbers.filter ages).flatMap ev = ((List.range 255).filter fun n => decide (n ≠ 0 ∧ P n)).flatMap f := by
  rw [← filter_stationNumbers, ← flatMap_ite P f, ← List.flatMap_congr h, flatMap_ite (fun n => ages n = true)]
  simp only [Bool.decide_eq_true]

/-- What a second boundary records of a LEGACY entry, by the entry it leaves. -/
def Chip.secondOfLegacy (c : Chip) (n : Nat) : List Logged :=
  if c.trunkUp (c.station n).trunk = false then []
  else
    (if (c.station n).presence = .active ∧ c.ctl.aging.silence ≤ min 65535 ((c.station n).age + 1) then
      [presenceEvent n .active .silent] else []) ++
    (if c.secondOf n = Station.blank then [.plain .station 6 (wordNat n) (octetPair (c.station n).trunk 0) 0] else [])

theorem secondOf_aged {c : Chip} {n : Nat} (hn : n ∈ stationNumbers) (h : c.ages n = true) : c.secondOf n =
    ((c.station n).older.underLegacy c.ctl.aging.limits).underProxy c.ctl.aging.limits :=
  (secondOf_eq c n).trans (if_pos (List.mem_filter.mpr ⟨hn, h⟩))

theorem legacyPass_events (c : Chip) :
    ((stationNumbers.filter c.ages).flatMap fun n => (c.station n).older.legacyEvents c.ctl.aging.limits n) =
      ((List.range 255).filter fun n => decide (n ≠ 0 ∧ (c.station n).kind = .legacy)).flatMap c.secondOfLegacy :=
  passEvents_eq fun n hn => by
    have hages := ages_iff c n
    by_cases hk : (c.station n).kind = .legacy
    · have hkind : (c.station n).older.kind = .legacy := hk
      rw [if_pos hk, Chip.secondOfLegacy]
      by_cases hup : c.trunkUp (c.station n).trunk = false
      · rw [if_pos hup, if_neg fun h => by simp_all]
      · have ha : c.ages n = true := hages.mpr (.inl ⟨hk, Bool.eq_true_of_not_eq_false hup⟩)
        rw [if_pos ha, if_neg hup, secondOf_aged hn ha, underProxy_of_ne (underLegacy_kind (hkind ▸ by decide)),
          Station.legacyEvents, if_neg (not_not_intro hkind)]
        simp only [underLegacy_blank_iff hkind]
        rfl
    · rw [if_neg hk, legacyEvents_of_ne (show (c.station n).older.kind ≠ .legacy from hk), ite_self]

theorem proxyPass_events (c : Chip) : ((stationNumbers.filter c.ages).flatMap fun n =>
      ((c.station n).older.underLegacy c.ctl.aging.limits).proxyEvents c.ctl.aging.limits n) =
    ((List.range 255).filter fun n => decide (n ≠ 0 ∧ (c.station n).kind = .proxy)).flatMap fun n =>
      if c.secondOf n = Station.blank then [.pair 4 (wordNat n) (octetPair 1 0) 0 (c.station n).addr] else [] :=
  passEvents_eq fun n hn => by
    by_cases hk : (c.station n).kind = .proxy
    · have ha : c.ages n = true := (ages_iff ..).mpr (.inr hk)
      have hkind : (c.station n).older.kind = .proxy := hk
      rw [if_pos ha, if_pos hk, secondOf_aged hn ha, underLegacy_of_ne (hkind ▸ by decide), Station.proxyEvents]
      simp only [underProxy_blank_iff hkind, hkind, true_and]
      rfl
    · rw [if_neg hk, proxyEvents_of_ne (underLegacy_kind (show (c.station n).older.kind ≠ .proxy from hk)), ite_self]

theorem only_of_withStn {c d : Chip} {v : StationUnit} {l : List Logged} (h : (c.withStn v).only d l) : c.only d l :=
  only_trans (l := []) (d := c.withStn v) rfl rfl (only_of_path rfl rfl) h

/-- Settles O5: the three passes in turn, and their events. -/
theorem secondBoundaryAgesTheTable : Obligations.SecondBoundaryAgesTheTable := by
  unfold Obligations.SecondBoundaryAgesTheTable
  intro s hdue hopen was events
  obtain ⟨hmoved, honly, hst⟩ := agedWork_becomes top (stationNumbers_nodup.filter s.chip.ages)
    (c := s.chip.withStn { s.chip.stn with secondDue := false, limits := s.chip.ctl.aging.limits }) hopen
  have hrun : runSecond top s.chip = secondBoundaryWork top s.chip := if_pos hdue
  have hctl : (secondBoundaryWork top s.chip).ctl = s.chip.ctl := hmoved.ctl
  have hevents := congrArg₂ (· ++ ·) (legacyPass_events s.chip) (proxyPass_events s.chip)
  refine ⟨_, rfl, ⟨rfl, ⟨rfl, rfl, rfl⟩⟩, ?_⟩
  rw [State.onChip_chip, hrun]
  refine ⟨hctl, ?_, fun n => (hst n).trans (secondOf_eq s.chip n).symm, ?_⟩
  · rw [Chip.over, hctl]
    exact hmoved
  · have htold := only_of_withStn honly
    exact (congrArg (s.chip.only (secondBoundaryWork top s.chip)) hevents).mp htold

end Sys2Proof.Machine

/-! PROOF. The table of R52 at stage two: what each hearing leaves of its entry and records (R52 to R55, R75). -/

namespace Sys2Proof.Machine

/-! ### The events of a hearing (section 9.8) -/

theorem logged_stationLearned (n k : Nat) :
    (evStationLearned n k).logged = .plain .station 1 (wordNat n) (octetPair k 0) 0 :=
  congrArg (Logged.plain .station 1 (wordNat n) (octetPair k 0)) octetPair_zero

theorem logged_stationMoved (n home k : Nat) :
    (evStationMoved n home k).logged = .plain .station 2 (wordNat n) (octetPair home k) 0 :=
  congrArg (Logged.plain .station 2 (wordNat n) (octetPair home k)) octetPair_zero

theorem logged_stationConflict (n home k : Nat) :
    (evStationConflict n home k).logged = .plain .station 3 (wordNat n) (octetPair home k) 0 :=
  congrArg (Logged.plain .station 3 (wordNat n) (octetPair home k)) octetPair_zero

theorem logged_numberClash (n k : Nat) (kind : Kind) :
    (evNumberClash n k kind).logged = .plain .station 4 (wordNat n) (octetPair k kind.code) 0 :=
  congrArg (Logged.plain .station 4 (wordNat n) (octetPair k kind.code)) octetPair_zero

theorem logged_proxyEvicted (n : Nat) (x : NewAddr) : (evProxyEvicted n x).logged = .pair 3 (wordNat n) 0 0 x := by
  show Logged.pair 3 (wordNat n) (octetPair 0 0) (octetPair 0 0) x = _
  rw [octetPair_zero]

/-! ### Each row of R52's table -/

section Rows

variable {c : Chip} {n k : Nat} (g : Give)

/-- A station placed on the trunk it was heard on (R53). -/
def Station.placed (k : Nat) (now : BitVec 32) : Station :=
  { Station.blank with kind := .legacy, trunk := k, lastChange := now, homeHearing := now }

theorem placeLegacy_entryMoved (n k : Nat) (c : Chip) : c.entryMoved (placeLegacy n k c) n
    (Station.placed k c.stn.clock) [.plain .station 1 (wordNat n) (octetPair k 0) 0] :=
  logged_stationLearned n k ▸ putStation_recordEvent_entryMoved ..

theorem hear_empty (hk : (c.station n).kind = .empty) : hear g n k c = (.taken, placeLegacy n k c) := by
  simp only [hear, hk]

/-- A proxy that is not pinned is evicted by the station heard (R53, R75). -/
theorem hear_proxy (hk : (c.station n).kind = .proxy) (hp : (c.station n).pinned = false)
    (ho : (c.station n).openJob = none) : hear g n k c =
      (.taken, placeLegacy n k (recordEvent (evProxyEvicted n (c.station n).addr) c)) := by
  simp only [hear, hk, hp, evictProxy, abandonOpen_none ho, if_neg Bool.false_ne_true]

theorem evict_place_entryMoved (n k : Nat) (c : Chip) :
    c.entryMoved (placeLegacy n k (recordEvent (evProxyEvicted n (c.station n).addr) c)) n (Station.placed k c.stn.clock)
      [.pair 3 (wordNat n) 0 0 (c.station n).addr, .plain .station 1 (wordNat n) (octetPair k 0) 0] := by
  have hevict := recordEvent_entryMoved n (evProxyEvicted n (c.station n).addr) c
  rw [logged_proxyEvicted] at hevict
  have hplace := placeLegacy_entryMoved n k (recordEvent (evProxyEvicted n (c.station n).addr) c)
  rw [recordEvent_stn] at hplace
  exact hevict.trans hplace

theorem hear_clash (hk : (c.station n).kind = .proxy ∧ (c.station n).pinned = true ∨ (c.station n).kind = .unit) :
    hear g n k c = hearClash n k c := by
  obtain ⟨hk, hp⟩ | hk := hk
  · simp only [hear, hk, hp, if_true]
  · simp only [hear, hk]

/-- A hearing away from home is a flap (R55). -/
abbrev Chip.flaps (c : Chip) (e : Station) : Prop :=
  e.pinned = true ∨ (c.up e.trunk ∧ c.ctl.aging.flapWindow ≠ 0 ∧
    (c.stn.clock - e.homeHearing).toNat < c.ctl.aging.flapWindow * 100)

theorem isFlap_iff (c : Chip) (e : Station) : c.isFlap e = true ↔ c.flaps e := by
  simp only [Chip.isFlap, trunkUp_eq, Bool.or_eq_true, Bool.and_eq_true, decide_eq_true_eq, Chip.flaps, and_assoc]

/-- An entry moved to another trunk (R55). -/
def Station.movedTo (k : Nat) (now : BitVec 32) (e : Station) : Station :=
  { e with trunk := k, lastChange := now, homeHearing := now, age := 0, presence := .active }

/-- An entry that flaps, its own trunk connected or not (R55). -/
def Chip.flapped (c : Chip) (e : Station) : Station :=
  { e with age := 0, presence := if c.up e.trunk then .active else e.presence }

variable (hk : (c.station n).kind = .legacy) (ht : (c.station n).trunk ≠ k)
include hk ht

theorem hear_move (hf : ¬ c.flaps (c.station n)) : hear g n k c = (.taken, hearMove g n k c) := by
  simp only [hear, hk, if_neg ht, if_neg (mt (isFlap_iff ..).mp hf)]

theorem hear_flap (hf : c.flaps (c.station n)) : hear g n k c = (.flap, hearFlap g n k c) := by
  simp only [hear, hk, if_neg ht, if_pos ((isFlap_iff ..).mpr hf)]

end Rows

theorem hearMove_entryMoved {c : Chip} {n : Nat} (ho : (c.station n).openJob = none) (k : Nat) (g : Give) :
    c.entryMoved (hearMove g n k c) n ((c.station n).movedTo k c.stn.clock)
      [.plain .station 2 (wordNat n) (octetPair (c.station n).trunk k) 0] := by
  have h := noticeHearing_entryMoved n (e := (c.station n).movedTo k c.stn.clock) ho
    (evStationMoved n (c.station n).trunk k) c g
  rw [logged_stationMoved] at h
  exact h

theorem hearFlap_entryMoved {c : Chip} {n : Nat} (ho : (c.station n).openJob = none) (k : Nat) (g : Give) :
    c.entryMoved (hearFlap g n k c) n (c.flapped (c.station n))
      [.plain .station 3 (wordNat n) (octetPair (c.station n).trunk k) 0] := by
  have h := noticeHearing_entryMoved n (e := c.flapped (c.station n)) ho
    (evStationConflict n (c.station n).trunk k) c g
  rw [logged_stationConflict] at h
  simp only [hearFlap, trunkUp_eq, decide_eq_true_eq]
  exact h

/-! ### Stage two of a frame that is heard -/

section Heard

variable {s : State} {v : Slot} (h : s.chip.heardFrame v)
  (hto : v.num 0 ≠ s.chip.ctl.unit.u ∨ v.num 0 = 0 ∨ ¬ (16 ≤ v.num 2 ∧ v.num 2 ≤ 19))
include h hto

/-- Stage two of a heard frame that nothing but its hearing and its charge changes one entry for. -/
theorem stageTwo_heard {x : Heard} {d : Chip} (hh : hear top (v.num 1) v.trunk s.chip = (x, d))
    (hctl : d.ctl = s.chip.ctl) {e : Station} {l : List Logged}
    (hmoved : s.chip.entryMoved (stageHealth top v x d) (v.num 1) e l) :
    ∃ t, exec (.stageTwo .coax) s = .next t ∧ s.released t .coax v (unstruck (coaxRest d x v).words) ∧
      t.chip = { s.chip.over t.chip with frm := t.chip.frm, stn := { s.chip.stn with table := t.chip.stn.table } } ∧
      (∀ m, t.chip.station m = if m = v.num 1 then e else s.chip.station m) ∧
      s.chip.logs t.chip l ∧ s.chip.formed t.chip .print [] := by
  obtain ⟨hframe, hs, -, -, hn⟩ := h
  have heval := evaluate_heard hframe hs hn hh (coaxRest_code_ne (hctl ▸ hto) x)
  obtain ⟨t, ht, hrel, hchip, hforms⟩ := stageTwo_released hframe.1 heval hmoved.seen
  exact ⟨t, ht, hrel, released_of_entryMoved hmoved hchip hforms⟩

/-- The same of a hearing that is no clash and that leaves a LEGACY entry with no open job, whose charge stays below the
station limit (R100). -/
theorem stageTwo_charged (herr : coaxError v.saved ≠ 3) {x : Heard} {d : Chip}
    (hh : hear top (v.num 1) v.trunk s.chip = (x, d)) (hx : x ≠ .clash) {e : Station} {l : List Logged}
    (hmoved : s.chip.entryMoved d (v.num 1) e l) (hk : e.kind = .legacy) (ho : e.openJob = none) {w : Nat}
    (hw : w = if x = .flap then s.chip.ctl.health.stationConflict else 0)
    (hc : ¬ e.crosses s.chip.ctl.health.stationLimit w) :
    ∃ t words, exec (.stageTwo .coax) s = .next t ∧ s.released t .coax v words ∧
      t.chip = { s.chip.over t.chip with frm := t.chip.frm, stn := { s.chip.stn with table := t.chip.stn.table } } ∧
      (∀ m, t.chip.station m = if m = v.num 1 then { e with score := e.chargedScore w } else s.chip.station m) ∧
      s.chip.logs t.chip l ∧ s.chip.formed t.chip .print [] := by
  obtain ⟨hframe, hs, hlen, -, hn⟩ := id h
  have hweight : v.stationWeight s.chip.ctl.health x = w := by
    rw [Slot.stationWeight, if_neg herr, if_neg (not_not_intro hlen), hw, Nat.zero_add]
  have hcharge := chargeStation_entryMoved (by rw [hmoved.self]; exact ho)
    (noReactions_of_ctl hmoved.ctl (coaxFrame_noReactions hframe)) w
  rw [hmoved.self, hmoved.ctl, if_neg hc, Station.charged, decide_eq_false hc, Bool.or_false] at hcharge
  have hall := hmoved.trans hcharge
  rw [List.append_nil] at hall
  have hhealth : stageHealth top v x d = chargeStation top (v.num 1) w d := by
    rw [stageHealth_of_good hs, not_malformed h, hmoved.ctl, hweight]
    dsimp only
    rw [if_neg Bool.false_ne_true, if_neg (by simp [hn, hx, hmoved.self, hk])]
  obtain ⟨t, ht, hrel, hrest⟩ := stageTwo_heard h hto hh hmoved.ctl (hhealth ▸ hall)
  exact ⟨t, _, ht, hrel, hrest⟩

/-- A hearing that is taken charges nothing. -/
theorem stageTwo_taken (herr : coaxError v.saved ≠ 3) {d : Chip}
    (hh : hear top (v.num 1) v.trunk s.chip = (.taken, d)) {e : Station} {l : List Logged}
    (hmoved : s.chip.entryMoved d (v.num 1) e l) (hk : e.kind = .legacy) (ho : e.openJob = none) :
    ∃ t words, exec (.stageTwo .coax) s = .next t ∧ s.released t .coax v words ∧
      t.chip = { s.chip.over t.chip with frm := t.chip.frm, stn := { s.chip.stn with table := t.chip.stn.table } } ∧
      (∀ m, t.chip.station m = if m = v.num 1 then e else s.chip.station m) ∧
      s.chip.logs t.chip l ∧ s.chip.formed t.chip .print [] :=
  stageTwo_charged h hto herr hh Heard.noConfusion hmoved hk ho rfl fun hc => hc.2.1 rfl

omit hto in
/-- A clash is recorded, charges nothing and changes no entry (R52). -/
theorem stageTwo_clash (hk : (s.chip.station (v.num 1)).kind = .proxy ∧ (s.chip.station (v.num 1)).pinned = true ∨
      (s.chip.station (v.num 1)).kind = .unit) :
    ∃ t, exec (.stageTwo .coax) s = .next t ∧ s.released t .coax v (verdictOf 13 (v.num 1) (v.num 0) 0 0) ∧
      t.chip = { s.chip.over t.chip with frm := t.chip.frm } ∧ s.chip.formed t.chip .print [] ∧
      s.chip.logs t.chip
        [.plain .station 4 (wordNat (v.num 1)) (octetPair v.trunk (s.chip.station (v.num 1)).kind.code) 0] := by
  obtain ⟨hframe, hs, -, -, hn⟩ := id h
  have hh := hear_clash top (k := v.trunk) hk
  rw [hearClash] at hh
  have hmoved := recordEvent_entryMoved (v.num 1)
    (evNumberClash (v.num 1) v.trunk (s.chip.station (v.num 1)).kind) s.chip
  rw [logged_numberClash] at hmoved
  have hm := not_malformed h
  have hrest : ∀ d, coaxRest d .clash v = { code := 13, src := v.num 1, dst := v.num 0 } := fun d => by
    simp only [coaxRest, hm, if_neg Bool.false_ne_true, if_true]
    rfl
  have heval := evaluate_heard hframe hs hn hh (by rw [hrest]; exact (by decide : (13 : Nat) ≠ 7))
  rw [stageHealth_of_good hs, hm, hrest] at heval
  simp only [true_or, or_true, if_true, if_neg Bool.false_ne_true] at heval
  obtain ⟨t, ht, hrel, hchip, hforms⟩ := stageTwo_released hframe.1 heval hmoved.seen
  obtain ⟨hover, -, hlogs, hprint⟩ := released_of_entryMoved hmoved hchip hforms
  refine ⟨t, ht, unstruck_words_plain 13 .. ▸ hrel, hover.trans ?_, hprint, hlogs⟩
  have hstn : t.chip.stn = s.chip.stn := by
    rw [hchip]
    exact recordEvent_stn ..
  rw [hstn]
  rfl

end Heard

/-- Settles O49: each row of R52's table is a lemma above. -/
theorem hearingsFollowTheTable : Obligations.HearingsFollowTheTable := by
  unfold Obligations.HearingsFollowTheTable
  intro v s h herr hto n k e hr now learned heard flaps
  refine ⟨fun hk => ?_, fun hk hp ho => ?_, stageTwo_clash h, fun hk ho => ⟨fun ht => ?_, fun ht hf => ?_,
    fun ht hf hlimit => ?_⟩⟩
  · exact stageTwo_taken h hto herr (hear_empty top hk) (placeLegacy_entryMoved ..) rfl rfl
  · exact stageTwo_taken h hto herr (hear_proxy top hk hp ho) (evict_place_entryMoved ..) rfl rfl
  · exact stageTwo_taken h hto herr (hear_home hk ht top) (hearHome_entryMoved ho top) hk ho
  · exact stageTwo_taken h hto herr (hear_move top hk ht hf) (hearMove_entryMoved ho k top) hk ho
  · refine stageTwo_charged h hto herr (hear_flap top hk ht hf) Heard.noConfusion (hearFlap_entryMoved ho k top) hk ho
      (w := hr.stationConflict) rfl fun ⟨hq, hw, hl⟩ => ?_
    obtain hquarantined | hbelow := hlimit
    · exact nomatch hq.symm.trans hquarantined
    · rw [Station.chargedScore, if_neg hw] at hl
      exact Nat.not_le.mpr hbelow hl

end Sys2Proof.Machine

/-! PROOF. Stage two of a print frame to the unit, and PRINT_DATA accepted (R82, R92, R132, R136, R137). -/

namespace Sys2Proof.Machine

/-! ### A hearing where no job is SUSPENDED (R54) -/

theorem noneSuspended_of_prt {c d : Chip} (h : d.prt = c.prt) (hn : c.noneSuspended) : d.noneSuspended := fun j => by
  rw [Chip.job_of_prt h]
  exact hn j

theorem Chip.entryMoved.prt {c d : Chip} {n : Nat} {e : Station} {l : List Logged} (h : c.entryMoved d n e l) :
    d.prt = c.prt := by rw [h.1]

/-- The print unit, told of a hearing, resumes none. -/
theorem noticeHearing_fixed {c : Chip} (h : c.noneSuspended) (g : Give) (n : Nat) : noticeHearing g n c = c := by
  have hjobs : jobsHeard g n c = c :=
    List.foldl_fixed' (fun j => if_neg fun hj => by simp [Job.suspended, h j] at hj) _
  unfold noticeHearing
  rw [hjobs, ite_self]

/-- At home, with an open job or without one. -/
theorem hearHome_fixed_entryMoved {c : Chip} (h : c.noneSuspended) (g : Give) (n : Nat) :
    c.entryMoved (hearHome g n c) n ((c.station n).heardHome c.stn.clock)
      (if (c.station n).presence = .silent then [presenceEvent n .silent .active] else []) := by
  unfold hearHome
  extract_lets e d f
  have hf : c.entryMoved f n (e.heardHome c.stn.clock)
      (if e.presence = .silent then [presenceEvent n .silent .active] else []) := by
    show c.entryMoved (if _ then _ else _) _ _ _
    split
    · rw [← logged_stationPresence]
      exact putStation_recordEvent_entryMoved ..
    · exact putStation_entryMoved ..
  rw [noticeHearing_fixed (noneSuspended_of_prt hf.prt h)]
  exact hf

/-! ### Stage two of a print frame (R82, R92) -/

section PrintFrame

variable {c : Chip} {v : Slot} {kind : Nat}

theorem coaxRest_toPrint (h : c.goodFrame v) (h0 : v.num 0 ≠ 0) (hu : v.num 0 = c.ctl.unit.u)
    (hk : 16 ≤ v.num 2 ∧ v.num 2 ≤ 19) : coaxRest c .taken v = { code := 7, src := v.num 1, dst := v.num 0 } := by
  obtain ⟨hheard, -, -, -, hq⟩ := h
  rw [coaxRest_good (not_malformed hheard) hq, if_pos ⟨hu ▸ h0, hu, (printKind_iff _).mpr hk⟩, hu]

/-- The TO_PRINT verdict with the print unit's outcome (R132). -/
def toPrint (src dst : Nat) (o : PrintOutcome) : Verdict :=
  { code := 7, src := src, dst := dst, detail := o.detail, reason := o.reason, job := o.job, printer := o.printer,
    bufferHeld := o.held }

/-- A print frame of a GOOD station at home is heard, charges nothing, and is the print unit's to answer. -/
theorem evaluate_print (h : c.printFrame v kind) (hk : 16 ≤ kind ∧ kind ≤ 19) (hn : c.noneSuspended)
    {o : PrintOutcome} {d : Chip} (hp : printFrame top (v.printFrame .coax (v.num 1)) (hearHome top (v.num 1) c) = (o, d)) :
    evaluate top .coax v c = (toPrint (v.num 1) (v.num 0) o, d) := by
  obtain ⟨hgood, h0, hu, hkind⟩ := h
  have hrest := coaxRest_toPrint hgood h0 hu (hkind ▸ hk)
  obtain ⟨hheard, herr, hlegacy, ht, -⟩ := hgood
  have hm := not_malformed hheard
  obtain ⟨hframe, hs, hlen, -, hnum⟩ := hheard
  have hmoved := hearHome_fixed_entryMoved hn top (v.num 1)
  have hrest' := ((hmoved.standsAs rfl rfl rfl rfl).coaxRest .taken v).trans hrest
  have hweight : v.stationWeight (hearHome top (v.num 1) c).ctl.health .taken = 0 := by
    simp [Slot.stationWeight, herr, hlen]
  have hhealth : stageHealth top v .taken (hearHome top (v.num 1) c) = hearHome top (v.num 1) c := by
    rw [stageHealth_of_good hs, hm, hweight]
    exact ite_self _
  rw [evaluate_coax hframe, coaxStation_heard hs hnum (hear_home hlegacy ht top), hhealth, hrest', stagePrint,
    if_pos rfl, hp]
  rfl

theorem unstruck_toPrint (src dst : Nat) (o : PrintOutcome) : unstruck (toPrint src dst o).words =
    printVerdict src dst o.detail (32 * bitNat o.held + 256 * (o.job % 32) + 8192 * (o.printer % 8)) o.reason := by
  simp only [toPrint, Verdict.words, printVerdict, Nat.zero_mod, Nat.zero_add, Nat.mul_zero, bitNat,
    Bool.false_eq_true, if_false]
  rfl

end PrintFrame

/-! ### PRINT_DATA accepted (R136, R137) -/

theorem spoolEntry_putSpool (i k : Nat) (v : Option SpoolEntry) (c : Chip) :
    (c.putSpool i v).spoolEntry k = if k = i then v else c.spoolEntry k :=
  tget_tset _ _ _ _ _

theorem Chip.spoolEntry_of_prt {c d : Chip} (h : d.prt = c.prt) (i : Nat) : d.spoolEntry i = c.spoolEntry i := by
  simp only [Chip.spoolEntry, h]

theorem lowest_spool {c : Chip} {i : Nat} (hi : i < 128) (hfree : c.spoolEntry i = none)
    (hlow : ∀ k < i, c.spoolEntry k ≠ none) :
    lowest Config.spoolEntries (fun i => (c.spoolEntry i).isNone) = some i :=
  lowest_eq_some hi (Option.isNone_iff_eq_none.mpr hfree) fun k hk =>
    Bool.eq_false_iff.mpr fun h => hlow k hk (Option.isNone_iff_eq_none.mp h)

/-- The spool entry a block is kept in (section 3.10). -/
def PrintFrame.entry (f : PrintFrame) (j : Nat) : SpoolEntry :=
  { addr := f.addr, len := f.len, job := j, srcRing := f.srcRing, srcIndex := f.srcIndex,
    inRing := false, ringIndex := none, ringCount := 0, stamp := 0 }

/-- A job with a block more, kept in spool entry `i`, and `idle` its idle countdown. -/
def Job.spooled (i : Nat) (f : PrintFrame) (idle : Option Nat) (w : Job) : Job :=
  { w with
    spool := w.spool ++ [i], accepted := min 65535 (w.accepted + f.len), seq := f.seq
    idle := idle }

/-- The next block of an open job whose printer is not READY. -/
theorem printData_accepted {c : Chip} {f : PrintFrame} {j i : Nat} (hj : (c.station f.owner).openJob = some j)
    (hseq : f.seq = (c.job j).seq + 1) (hlen : f.len ≠ 0) (hready : (c.printer (c.job j).printer).state ≠ .ready)
    (hns : (c.job j).state ≠ .suspended)
    (hcap : (c.job j).state ≠ .waiting ∨ (c.job j).spool.length < c.ctl.print.waitCap)
    (hi : i < 128) (hfree : c.spoolEntry i = none) (hlow : ∀ k < i, c.spoolEntry k ≠ none) (g : Give) :
    printData g f c = ({ detail := 1, job := j, printer := (c.job j).printer, held := true },
      (c.putSpool i (some (f.entry j))).putJob j
        ((c.job j).spooled i f (if (c.job j).idle = none then none else c.idleSpan))) := by
  have hnext : f.seq ≠ (c.job j).seq := by
    rw [hseq]
    bv_omega
  have hidle : (c.putSpool i (some (f.entry j))).idleRestart (c.job j) =
      if (c.job j).idle = none then none else c.idleSpan := by
    rw [Chip.idleRestart]
    cases (c.job j).idle <;> rfl
  have hwait : ¬ ((c.job j).stillWaiting = true ∧ c.ctl.print.waitCap ≤ (c.job j).spool.length) := fun ⟨hw, hl⟩ =>
    hcap.elim (fun h => by simp [Job.stillWaiting, h, hns] at hw) fun h => Nat.not_le.mpr h hl
  have haccept : acceptData g j i f c = serve g (c.job j).printer ((c.putSpool i (some (f.entry j))).putJob j
      ((c.job j).spooled i f ((c.putSpool i (some (f.entry j))).idleRestart (c.job j)))) := rfl
  simp only [printData, hj, if_neg hnext, if_neg (not_not_intro hseq), if_neg hlen, lowest_spool hi hfree hlow,
    if_neg hwait, haccept, serve_notReady g (c := (c.putSpool i _).putJob j _) hready, hidle]

/-- The part after the release of a frame that changed one entry and then the print unit alone. -/
theorem released_of_printed {c d e f : Chip} {n : Nat} {st : Station} {l : List Logged} (h : c.entryMoved d n st l)
    (he : e = d.withPrt e.prt) (hf : f = { e with path := f.path, frm := f.frm })
    (hforms : ∀ o, o ≠ .frame → e.formed f o []) :
    f = { c.over f with frm := f.frm, stn := { c.stn with table := f.stn.table }, prt := e.prt } ∧
      (∀ m, f.station m = if m = n then st else c.station m) ∧ c.logs f l ∧ c.formed f .print [] := by
  have hforms' : ∀ o, o ≠ .frame → d.formed (f.withPrt d.prt) o [] := fun o ho => by
    have := hforms o ho
    rw [he] at this
    exact this
  obtain ⟨hover, hst, hlogs, hprint⟩ := released_of_entryMoved (f := f.withPrt d.prt) h (by rw [hf, he]; rfl) hforms'
  refine ⟨?_, hst, hlogs, hprint⟩
  have hprt : f.prt = e.prt := by rw [hf]
  have hback : f = (f.withPrt d.prt).withPrt e.prt := by rw [← hprt]; rfl
  conv_lhs => rw [hback, hover]
  rfl

/-- Settles O48: the frame is heard, its block spooled, and its verdict released. -/
theorem printDataIsSpooled : Obligations.PrintDataIsSpooled := by
  unfold Obligations.PrintDataIsSpooled
  intro v j i s h hn n len e w hj hseq hlen hready hcap hi hfree hlow
  obtain ⟨⟨⟨⟨hv, -⟩, -⟩, -⟩, -, -, hkind⟩ := id h
  have hmoved := hearHome_fixed_entryMoved hn top n
  have hdispatch : printFrame top (v.printFrame .coax n) (hearHome top n s.chip) =
      printData top (v.printFrame .coax n) (hearHome top n s.chip) := by
    have hk : (v.printFrame .coax n).kind = 17 := hkind
    rw [printFrame, hk]
    rfl
  have hevaluate := evaluate_print h (by decide) hn (hdispatch.trans (Prod.mk.eta ..).symm)
  generalize hearHome top n s.chip = d at hmoved hevaluate
  have hprt := hmoved.prt
  have hjob : ∀ k, d.job k = s.chip.job k := Chip.job_of_prt hprt
  have hspool : ∀ k, d.spoolEntry k = s.chip.spoolEntry k := Chip.spoolEntry_of_prt hprt
  have hprint : d.ctl.print = s.chip.ctl.print := by rw [hmoved.ctl]
  have hlength : (v.printFrame .coax n).len = len := payloadLen_eq .coax v
  have hdata := printData_accepted (c := d) (f := v.printFrame .coax n) (j := j) (i := i)
    (show (d.station n).openJob = some j by rw [hmoved.self]; exact hj) (by rw [hjob]; exact hseq)
    (by rw [hlength]; exact hlen) (by rw [hjob, Chip.printer_of_prt hprt]; exact hready) (by rw [hjob]; exact hn j)
    (by rw [hjob, hprint]; exact hcap) hi (by rw [hspool]; exact hfree) (fun k hk => by rw [hspool]; exact hlow k hk) top
  have hidle : d.idleSpan = s.chip.idleSpan := by simp only [Chip.idleSpan, hprint]
  rw [hdata, hjob, hidle] at hevaluate
  have hspooled := spoolEntry_putSpool i (v := some ((v.printFrame .coax n).entry j)) (c := d)
  obtain ⟨t, ht, hrel, hchip, hforms⟩ := stageTwo_released (d := Chip.putJob j _ _) hv hevaluate
    (hmoved.seen.trans ⟨rfl, rfl, onlyEvents_of_path rfl⟩)
  obtain ⟨hover, hst, hlogs, hformed⟩ := released_of_printed hmoved (by rfl) hchip hforms
  have htprt := congrArg Chip.prt hchip
  dsimp only at htprt
  rw [unstruck_toPrint] at hrel
  refine ⟨t, ht, hrel, hover.trans ?_, hlogs, hformed, hst, fun k => ?_, fun k => ?_⟩
  · rw [htprt, ← hprt]
    rfl
  · refine (Chip.job_of_prt htprt k).trans ((job_putJob ..).trans ?_)
    rw [Job.spooled, hlength]
    exact if_congr Iff.rfl rfl (hjob k)
  · refine (Chip.spoolEntry_of_prt htprt k).trans ((hspooled k).trans ?_)
    rw [PrintFrame.entry, hlength]
    exact if_congr Iff.rfl rfl (hspool k)

end Sys2Proof.Machine

/-! PROOF. The lookup of a link frame's source at stage two: clashes, numbers found, lent and reclaimed, and none
(R70 to R73, R89). -/

namespace Sys2Proof.Machine

/-! ### The events of a lookup (section 5.8) -/

theorem logged_proxyAllocated (p slot : Nat) (x : NewAddr) :
    (evProxyAllocated p slot x).logged = .pair 1 (wordNat p) (octetPair slot 0) 0 x :=
  congrArg (Logged.pair 1 (wordNat p) (octetPair slot 0) · x) octetPair_zero

theorem logged_proxyReclaimed (p : Nat) (x : NewAddr) :
    (evProxyReclaimed p x).logged = .pair 2 (wordNat p) 0 0 x := by
  show Logged.pair 2 (wordNat p) (octetPair 0 0) (octetPair 0 0) x = _
  rw [octetPair_zero]

theorem logged_proxyPoolEmpty (x : NewAddr) : (evProxyPoolEmpty x).logged = .pair 5 0 0 0 x := by
  show Logged.pair 5 (wordNat 0) (octetPair 0 0) (octetPair 0 0) x = _
  rw [octetPair_zero]
  rfl

theorem logged_addressClash (x : NewAddr) : (evAddressClash x).logged = .pair 6 0 0 0 x := by
  show Logged.pair 6 (wordNat 0) (octetPair 0 0) (octetPair 0 0) x = _
  rw [octetPair_zero]
  rfl

/-! ### The proxy map, searched (R69 to R71) -/

/-- Number `m` is lent as a proxy. -/
abbrev Chip.lends (c : Chip) (m : Nat) : Prop := m ≠ 0 ∧ m < 255 ∧ (c.station m).kind = .proxy

/-- Slot `k` is the lowest that no proxy other than `n` holds. -/
def Chip.lowestFree (c : Chip) (n k : Nat) : Prop :=
  k < 64 ∧ (∀ m, m ≠ n → c.lends m → (c.station m).slot ≠ k) ∧
    ∀ i < k, ∃ m, m ≠ n ∧ c.lends m ∧ (c.station m).slot = i

section Map

variable {c : Chip} {n k : Nat}

theorem mem_proxies_iff_lends {m : Nat} : m ∈ c.proxies ↔ c.lends m := by
  rw [mem_proxies, List.mem_range]
  exact and_left_comm

theorem findAddr_none {x : NewAddr} (h : ¬ ∃ m, c.lends m ∧ (c.station m).addr = x) : c.findAddr x = none :=
  List.find?_eq_none.mpr fun m hm hx => h ⟨m, mem_proxies_iff_lends.mp hm, of_decide_eq_true hx⟩

theorem slotHeld_iff_lends : c.slotHeld n k ↔ ∃ m, m ≠ n ∧ c.lends m ∧ (c.station m).slot = k := by
  simp only [Chip.slotHeld, List.mem_range]
  exact exists_congr fun m => ⟨fun ⟨hr, h0, hn, hk, hs⟩ => ⟨hn, ⟨h0, hr, hk⟩, hs⟩,
    fun ⟨hn, ⟨h0, hr, hk⟩, hs⟩ => ⟨hr, h0, hn, hk, hs⟩⟩

theorem lowestFree_iff_slotHeld :
    c.lowestFree n k ↔ k < 64 ∧ ¬ c.slotHeld n k ∧ ∀ i < k, c.slotHeld n i := by
  simp only [Chip.lowestFree, slotHeld_iff_lends, not_exists, not_and]

theorem lowestFree_emptyStation : (emptyStation n c).lowestFree n k ↔ c.lowestFree n k := by
  simp only [lowestFree_iff_slotHeld, slotHeld_emptyStation]

theorem freeSlot_of_lowestFree (hn : (c.station n).kind ≠ .proxy) (h : c.lowestFree n k) : c.freeSlot = some k := by
  obtain ⟨hk, hfree, hlow⟩ := lowestFree_iff_slotHeld.mp h
  exact freeSlot_eq_some hn hk hfree hlow

/-- An entry that is no proxy holds no slot, and no more does entry 0. -/
theorem lowestFree_of_zero (hn : (c.station n).kind ≠ .proxy) (h : c.lowestFree 0 k) : c.lowestFree n k := by
  obtain ⟨hk, hfree, hlow⟩ := h
  refine ⟨hk, fun m _ hm => hfree m hm.1 hm, fun i hi => ?_⟩
  obtain ⟨m, -, ⟨h0, hr, hproxy⟩, hs⟩ := hlow i hi
  exact ⟨m, fun hmn => hn (hmn ▸ hproxy), ⟨h0, hr, hproxy⟩, hs⟩

theorem freeSlot_none (h : ∀ k < 64, ∃ m, c.lends m ∧ (c.station m).slot = k) : c.freeSlot = none := by
  refine List.find?_eq_none.mpr fun k hk => ?_
  obtain ⟨m, hm, hs⟩ := h k (List.mem_range.mp hk)
  simpa using ⟨m, mem_proxies_iff_lends.mpr hm, hs⟩

theorem emptyNumber_eq_some {p : Nat} {before after : List Nat} (hr : c.ctl.unit.proxyRange = before ++ p :: after)
    (hb : ∀ m ∈ before, (c.station m).kind ≠ .empty) (hp : (c.station p).kind = .empty) : c.emptyNumber = some p :=
  List.find?_eq_some_iff_append.mpr ⟨decide_eq_true hp, before, after, hr, fun m hm => by simp [hb m hm]⟩

theorem emptyNumber_none (h : ∀ m ∈ c.ctl.unit.proxyRange, (c.station m).kind ≠ .empty) : c.emptyNumber = none :=
  List.find?_eq_none.mpr fun m hm hk => h m hm (of_decide_eq_true hk)

end Map

/-! ### The oldest proxy (R72) -/

/-- The range is read in ascending number (R68). -/
theorem proxyRange_ascending (u : UnitRec) : u.proxyRange.Pairwise (· < ·) :=
  .sublist (List.take_sublist ..) <|
    (List.pairwise_lt_range.map (· + u.pLo) fun _ _ h => Nat.add_lt_add_right h u.pLo).filter _

section Oldest

variable {c : Chip} {p : Nat}

/-- A proxy may be reclaimed (R72, assumption 56). -/
abbrev Chip.spare (c : Chip) (m : Nat) : Prop :=
  (c.station m).kind = .proxy ∧ (c.station m).pinned = false ∧ (c.station m).openJob = none ∧
    c.stn.limits.reclaimMin ≤ (c.station m).age

theorem reclaimable_iff (c : Chip) (m : Nat) : c.reclaimable m = true ↔ c.spare m := by
  simp only [Chip.reclaimable, Bool.and_eq_true, decide_eq_true_eq, Bool.not_eq_true', Option.isNone_iff_eq_none,
    and_assoc]

/-- The number chosen so far, if any, is younger than `p`. -/
def Chip.youngerThan (c : Chip) (p : Nat) (a : Option Nat) : Prop := ∀ m ∈ a, (c.station m).age < (c.station p).age

theorem older_youngerThan {a : Option Nat} (ha : c.youngerThan p a) {m : Nat}
    (hm : (c.station m).age < (c.station p).age) : c.youngerThan p (c.older a m) := by
  have hsome : c.youngerThan p (some m) := fun k hk => by cases hk; exact hm
  unfold Chip.older
  split
  · exact hsome
  · split
    · exact hsome
    · exact ha

theorem older_of_youngerThan {a : Option Nat} (ha : c.youngerThan p a) : c.older a p = some p := by
  unfold Chip.older
  split
  · rfl
  · next m => exact if_pos (ha m rfl)

theorem older_of_le {m : Nat} (h : (c.station m).age ≤ (c.station p).age) : c.older (some p) m = some p :=
  if_neg (Nat.not_lt.mpr h)

/-- The oldest, and the lowest of its age, is the one chosen: those before it are younger, those after it no older. -/
theorem oldestProxy_eq_some (hp : p ∈ c.ctl.unit.proxyRange) (hs : c.spare p)
    (hold : ∀ m ∈ c.ctl.unit.proxyRange, c.spare m →
      (c.station m).age < (c.station p).age ∨ ((c.station m).age = (c.station p).age ∧ p ≤ m)) :
    c.oldestProxy = some p := by
  have hasc := (proxyRange_ascending c.ctl.unit).filter c.reclaimable
  have hmem : ∀ m ∈ c.ctl.unit.proxyRange.filter c.reclaimable,
      (c.station m).age < (c.station p).age ∨ ((c.station m).age = (c.station p).age ∧ p ≤ m) := fun m hm => by
    obtain ⟨hr, hrec⟩ := List.mem_filter.mp hm
    exact hold m hr ((reclaimable_iff c m).mp hrec)
  obtain ⟨before, after, heq⟩ :=
    List.append_of_mem (List.mem_filter.mpr ⟨hp, (reclaimable_iff c p).mpr hs⟩)
  rw [heq] at hasc hmem
  obtain ⟨-, -, hlt⟩ := List.pairwise_append.mp hasc
  have hbefore : c.youngerThan p (before.foldl c.older none) :=
    List.foldlRecOn before c.older nofun fun a ha m hm => older_youngerThan ha <|
      (hmem m (List.mem_append_left _ hm)).resolve_right fun h =>
        Nat.not_le.mpr (hlt m hm p List.mem_cons_self) h.2
  have hafter : after.foldl c.older (some p) = some p :=
    List.foldlRecOn (motive := (· = some p)) after c.older rfl fun a ha m hm => by
      rw [ha]
      obtain h | ⟨h, -⟩ := hmem m (List.mem_append_right _ (List.mem_cons_of_mem _ hm))
      all_goals exact older_of_le h.le
  rw [Chip.oldestProxy, heq, List.foldl_append, List.foldl_cons, older_of_youngerThan hbefore, hafter]

theorem oldestProxy_none (h : ∀ m ∈ c.ctl.unit.proxyRange, ¬ c.spare m) : c.oldestProxy = none := by
  have hnil : c.ctl.unit.proxyRange.filter c.reclaimable = [] :=
    List.filter_eq_nil_iff.mpr fun m hm => mt (reclaimable_iff c m).mp (h m hm)
  rw [Chip.oldestProxy, hnil]
  rfl

end Oldest

/-! ### What a lookup gives (R70 to R73) -/

/-- The part with its exhausted flag at `b` (R73). -/
def Chip.flagged (b : Bool) (c : Chip) : Chip := c.withStn { c.stn with exhausted := b }

/-- An event recorded under the new flag is the same event (R73). -/
theorem recordEvent_flagged_entryMoved (v : Event) (b : Bool) (c : Chip) :
    c.entryMoved ((recordEvent v (c.flagged b)).withStn c.stn) 0 (c.station 0) [v.logged] := by
  obtain ⟨hunits, hevents, hlogs, -⟩ := recordEvent_entryMoved 0 v (c.flagged b)
  refine ⟨?_, hevents, hlogs, fun m => ?_⟩
  · conv_lhs => rw [hunits]
    rfl
  · show c.station m = _
    split
    · next hm => rw [hm]
    · rfl

/-- The entry of a number lent to `x` in a slot (R71). -/
def Station.lentTo (x : NewAddr) (slot : Nat) : Station :=
  { Station.blank with kind := .proxy, addr := x, slot := slot }

section Lookup

variable {c : Chip} {x : NewAddr} (g : Give)

theorem lookup_clash (h : c.ctl.unit.inAliasBlock x = true) :
    lookup g x c = (.clash, recordEvent (evAddressClash x) c) :=
  if_pos h

theorem lookup_found (h : ¬ c.ctl.unit.inAliasBlock x = true) {p : Nat} (hp : c.findAddr x = some p) :
    lookup g x c = (.number p, c.putStation p { c.station p with age := 0 }) := by
  simp only [lookup, if_neg h, hp]

theorem lookup_allOnes (h : ¬ c.ctl.unit.inAliasBlock x = true) (hf : c.findAddr x = none) (hx : x = allOnes) :
    lookup g x c = (.noProxy, c) := by
  simp only [lookup, if_neg h, hf, if_pos hx]

/-- Another address that the map does not hold is given a number (R71). -/
theorem lookup_allocates (h : ¬ c.ctl.unit.inAliasBlock x = true) (hf : c.findAddr x = none) (hx : x ≠ allOnes) :
    lookup g x c = allocate g x c := by
  simp only [lookup, if_neg h, hf, if_neg hx]

theorem allocate_lends {p slot : Nat} (hp : c.emptyNumber = some p) (hs : c.freeSlot = some slot) :
    allocate g x c = (.number p, lendNumber p slot x c) := by
  simp only [allocate, hp, hs]

/-- With no EMPTY number, or no free slot, the oldest proxy is reclaimed, or there is none (R72, R73). -/
theorem allocate_reclaims (h : c.emptyNumber = none ∨ c.freeSlot = none) : allocate g x c =
    c.oldestProxy.elim (.noProxy, poolEmpty g x c) fun p => (.number p, reclaimNumber p x c) := by
  unfold allocate
  split
  · next hp hs => exact h.elim (fun h => nomatch hp.symm.trans h) (fun h => nomatch hs.symm.trans h)
  · split <;> next ho => rw [ho]; rfl

/-- A number lent: its entry, the event, and the flag cleared (R71). -/
theorem lendNumber_entryMoved (p slot : Nat) (x : NewAddr) (c : Chip) :
    ∃ d, lendNumber p slot x c = d.flagged false ∧
      c.entryMoved d p (.lentTo x slot) [.pair 1 (wordNat p) (octetPair slot 0) 0 x] :=
  ⟨_, rfl, logged_proxyAllocated p slot x ▸ putStation_recordEvent_entryMoved p (.lentTo x slot) _ c⟩

/-- The reclaimed proxy's own slot is free again when the lowest is sought (R72). -/
theorem reclaimNumber_eq {p slot : Nat} (h : c.lowestFree p slot) : reclaimNumber p x c =
    lendNumber p slot x (recordEvent (evProxyReclaimed p (c.station p).addr) (emptyStation p c)) := by
  have hself : (emptyStation p c).station p = Station.blank := (putStation_entryMoved ..).self
  have hempty : (emptyStation p c).freeSlot = some slot :=
    freeSlot_of_lowestFree (by rw [hself]; exact Kind.noConfusion) (lowestFree_emptyStation.mpr h)
  have hfree : (recordEvent (evProxyReclaimed p (c.station p).addr) (emptyStation p c)).freeSlot = some slot := by
    rw [← hempty]
    simp only [Chip.freeSlot, Chip.proxies, Chip.station_of_stn (recordEvent_stn ..)]
  simp only [reclaimNumber, hfree]

theorem reclaim_entryMoved (p : Nat) (c : Chip) :
    c.entryMoved (recordEvent (evProxyReclaimed p (c.station p).addr) (emptyStation p c)) p Station.blank
      [.pair 2 (wordNat p) 0 0 (c.station p).addr] :=
  logged_proxyReclaimed p (c.station p).addr ▸ putStation_recordEvent_entryMoved ..

/-- A failed allocation sets the flag, and is recorded where the flag was clear (R73). -/
theorem poolEmpty_entryMoved (hn : c.noReactions) (x : NewAddr) :
    ∃ d, poolEmpty top x c = d.flagged true ∧ d.stn = c.stn ∧
      c.entryMoved d 0 (c.station 0) (if c.stn.exhausted then [] else [.pair 5 0 0 0 x]) := by
  unfold poolEmpty
  by_cases he : c.stn.exhausted = true
  · simp only [if_pos he]
    exact ⟨c, by rw [← he]; rfl, rfl, entryMoved_refl 0 c⟩
  · simp only [if_neg he]
    refine ⟨(recordEvent (evProxyPoolEmpty x) (c.flagged true)).withStn c.stn, ?_, rfl,
      logged_proxyPoolEmpty x ▸ recordEvent_flagged_entryMoved _ true c⟩
    have hflagged : (c.flagged true).noReactions := hn
    refine (top_of_noReactions (noReactions_of_ctl (recordEvent_ctl ..) hflagged) _).trans ?_
    show _ = (recordEvent (evProxyPoolEmpty x) (c.flagged true)).withStn (c.flagged true).stn
    rw [← recordEvent_stn (c.flagged true) (evProxyPoolEmpty x)]
    rfl

end Lookup

/-! ### Stage two of a link frame to a station's alias (R87 to R91) -/

/-- The verdict by what the lookup of a frame's source gave (R89 to R91). -/
def linkVerdict (c : Chip) (a : Nat) (v : Slot) : Lookup → Verdict
  | .clash => { code := 13, dst := a }
  | .noProxy => { code := 9, dst := a }
  | .number p => pairRest c p a false v

theorem pairToEntry_code_ne (c : Chip) (p a : Nat) : (pairToEntry c p a).code ≠ 7 := by
  simp only [pairToEntry]
  split
  · split_ifs <;> simp
  all_goals simp

theorem linkVerdict_code_ne {a : Nat} (ha : a ≠ 0) (c : Chip) (v : Slot) (k : Lookup) :
    (linkVerdict c a v k).code ≠ 7 := by
  cases k with
  | clash => simp [linkVerdict]
  | noProxy => simp [linkVerdict]
  | number p =>
    rw [linkVerdict]
    cases hq : (c.station p).quarantined with
    | true => simp [pairRest_quarantined hq]
    | false =>
      rw [pairRest_toEntry hq ha]
      exact pairToEntry_code_ne c p a

/-- The part after the release of a frame that changed one entry and the exhausted flag. -/
theorem released_of_flagged {c d f : Chip} {n : Nat} {e : Station} {l : List Logged} {b : Bool}
    (h : c.entryMoved d n e l) (hf : f = { d.flagged b with path := f.path, frm := f.frm })
    (hforms : ∀ o, o ≠ .frame → (d.flagged b).formed f o []) :
    f = { c.over f with frm := f.frm, stn := { c.stn with table := f.stn.table, exhausted := b } } ∧
      (∀ m, f.station m = if m = n then e else c.station m) ∧ c.logs f l ∧ c.formed f .print [] := by
  have hstn : f.stn = { d.stn with exhausted := b } := by rw [hf]; rfl
  obtain ⟨hover, hst, hlogs, hprint⟩ := released_of_entryMoved (f := f.withStn d.stn) h (by rw [hf]; rfl) hforms
  refine ⟨?_, fun m => ?_, hlogs, hprint⟩
  · have hback : f = (f.withStn d.stn).flagged b := by
      show f = { f with stn := { d.stn with exhausted := b } }
      rw [← hstn]
    conv_lhs => rw [hback, hover]
    show { c.over f with frm := f.frm, stn := { c.stn with table := d.stn.table, exhausted := b } } = _
    rw [hstn]
  · rw [← hst m]
    show tget Station.blank f.stn.table m = _
    rw [hstn]
    rfl

/-- Stage two of link frame `v` releases it, its lookup having replaced entry `p` by `e`, left the exhausted flag at
`b` and handed on the events `l`, and nothing else. -/
def State.findsNumber (s : State) (v : Slot) (b : Bool) (l : List Logged) (p : Nat) (e : Station) : Prop :=
  ∃ t words, exec (.stageTwo .pair) s = .next t ∧ s.released t .pair v words ∧
    t.chip = { s.chip.over t.chip with
      frm := t.chip.frm
      stn := { s.chip.stn with table := t.chip.stn.table, exhausted := b } } ∧
    (∀ m, t.chip.station m = if m = p then e else s.chip.station m) ∧
    s.chip.logs t.chip l ∧ s.chip.formed t.chip .print []

/-- The same where the lookup found no number: the verdict has this code and destination `a`, and no entry changed. -/
def State.findsNone (s : State) (v : Slot) (a code : Nat) (b : Bool) (l : List Logged) : Prop :=
  ∃ t, exec (.stageTwo .pair) s = .next t ∧ s.released t .pair v (verdictOf code 0 a 0 0) ∧
    t.chip = { s.chip.over t.chip with frm := t.chip.frm, stn := { s.chip.stn with exhausted := b } } ∧
    s.chip.logs t.chip l ∧ s.chip.formed t.chip .print []

section LinkFrame

variable {s : State} {v : Slot} {a : Nat} (h : s.chip.linkFrame v a)
include h

theorem linkFrame_destined : v.destined s.chip.ctl.unit a false := by
  obtain ⟨-, h0, h255, hu, hbase, hm, -⟩ := h
  have hones : v.destAddr ≠ BitVec.allOnes 48 := fun hones => by
    have h48 : (BitVec.allOnes 48).toNat % 256 = 255 := by decide
    rw [← hones, hm] at h48
    omega
  refine .inr ⟨by omega, (decide_eq_false fun k => hu k.2).symm, ?_⟩
  rw [if_neg hones, Slot.toAlias, hm]
  omega

theorem linkFrame_noReactions : s.chip.noReactions := by
  obtain ⟨⟨⟨-, -, -, -, hn⟩, -⟩, -⟩ := h
  exact hn

theorem pairStation_looked (g : Give) : pairStation g v s.chip =
    (linkVerdict (lookup g v.sourceAddr s.chip).2 a v (lookup g v.sourceAddr s.chip).1,
      (lookup g v.sourceAddr s.chip).2) := by
  have hd := linkFrame_destined h
  obtain ⟨hlink, -, -, -, -, -, hsum, hlen⟩ := h
  obtain ⟨herr, hislink⟩ := linkArrived_reads hlink
  have hfault := (linkFault_of_good hsum).trans (if_neg (Nat.not_lt.mpr hlen))
  simp only [pairStation, if_neg herr, hislink, Bool.not_true, if_neg Bool.false_ne_true, readDest_destined hd,
    hfault]
  split <;> next hk => rw [hk]; rfl

/-- Stage two of such a frame, by what its lookup gives and leaves: an entry replaced, events and the exhausted
flag. -/
theorem stageTwo_looked {k : Lookup} {d : Chip} {b : Bool} {n : Nat} {e : Station} {l : List Logged}
    (hlook : lookup top v.sourceAddr s.chip = (k, d.flagged b)) (hmoved : s.chip.entryMoved d n e l) :
    ∃ t, exec (.stageTwo .pair) s = .next t ∧
      s.released t .pair v (unstruck (linkVerdict (d.flagged b) a v k).words) ∧
      t.chip = { s.chip.over t.chip with
        frm := t.chip.frm
        stn := { s.chip.stn with table := t.chip.stn.table, exhausted := b } } ∧
      (∀ m, t.chip.station m = if m = n then e else s.chip.station m) ∧
      s.chip.logs t.chip l ∧ s.chip.formed t.chip .print [] ∧ t.chip.stn.table = d.stn.table := by
  have hpair := pairStation_looked h top
  obtain ⟨hlink, ha, -⟩ := h
  rw [hlook] at hpair
  have heval : evaluate top .pair v s.chip = (linkVerdict (d.flagged b) a v k, d.flagged b) := by
    rw [evaluate_pair (linkArrived_fixed hlink), hpair]
    exact stagePrint_of_ne (linkVerdict_code_ne ha _ v k) ..
  obtain ⟨t, ht, hrel, hchip, hforms⟩ := stageTwo_released hlink.1 heval hmoved.seen
  obtain ⟨hover, hst, hlogs, hprint⟩ := released_of_flagged hmoved hchip hforms
  exact ⟨t, ht, hrel, hover, hst, hlogs, hprint, by rw [hchip]; rfl⟩

/-- The lookup gave number `p`, whose entry alone was replaced. -/
theorem stageTwo_number {d : Chip} {b : Bool} {p : Nat} {e : Station} {l : List Logged}
    (hlook : lookup top v.sourceAddr s.chip = (.number p, d.flagged b)) (hmoved : s.chip.entryMoved d p e l) :
    s.findsNumber v b l p e := by
  obtain ⟨t, ht, hrel, hover, hst, hlogs, hprint, -⟩ := stageTwo_looked h hlook hmoved
  exact ⟨t, _, ht, hrel, hover, hst, hlogs, hprint⟩

/-- The lookup gave no number, and changed no entry. -/
theorem stageTwo_noNumber {k : Lookup} {d : Chip} {b : Bool} {code : Nat} {l : List Logged}
    (hlook : lookup top v.sourceAddr s.chip = (k, d.flagged b)) (hmoved : s.chip.entryMoved d 0 (s.chip.station 0) l)
    (hstn : d.stn = s.chip.stn) (hk : linkVerdict (d.flagged b) a v k = { code := code, dst := a }) :
    s.findsNone v a code b l := by
  obtain ⟨t, ht, hrel, hover, -, hlogs, hprint, htable⟩ := stageTwo_looked h hlook hmoved
  rw [hk, unstruck_words_plain] at hrel
  refine ⟨t, ht, hrel, hover.trans ?_, hlogs, hprint⟩
  rw [htable, hstn]

/-! ### The cases of a lookup -/

theorem stageTwo_clashes (hx : s.chip.ctl.unit.inAliasBlock v.sourceAddr = true) :
    s.findsNone v a 13 s.chip.stn.exhausted [.pair 6 0 0 0 v.sourceAddr] := by
  have hstn : (recordEvent (evAddressClash v.sourceAddr) s.chip).stn = s.chip.stn := recordEvent_stn ..
  have hflag : recordEvent (evAddressClash v.sourceAddr) s.chip =
      (recordEvent (evAddressClash v.sourceAddr) s.chip).flagged s.chip.stn.exhausted := by
    rw [← hstn]
    rfl
  exact stageTwo_noNumber h ((lookup_clash top hx).trans (congrArg _ hflag))
    (logged_addressClash v.sourceAddr ▸ recordEvent_entryMoved ..) hstn rfl

variable (hx : ¬ s.chip.ctl.unit.inAliasBlock v.sourceAddr = true)
include hx

/-- A number the map holds (R70). -/
theorem stageTwo_held {p : Nat} (hp : s.chip.findAddr v.sourceAddr = some p) :
    s.findsNumber v s.chip.stn.exhausted [] p { s.chip.station p with age := 0 } :=
  stageTwo_number h (d := s.chip.putStation p { s.chip.station p with age := 0 }) (lookup_found top hx hp)
    (putStation_entryMoved ..)

variable (hf : s.chip.findAddr v.sourceAddr = none)
include hf

theorem stageTwo_allOnes (hones : v.sourceAddr = allOnes) : s.findsNone v a 9 s.chip.stn.exhausted [] :=
  stageTwo_noNumber h (d := s.chip) (lookup_allOnes top hx hf hones) (entryMoved_refl ..) rfl rfl

variable (hones : v.sourceAddr ≠ allOnes)
include hones

/-- The lowest EMPTY number of the range is lent, in the lowest free slot (R71). -/
theorem stageTwo_lends {p slot : Nat} (hp : s.chip.emptyNumber = some p) (hs : s.chip.freeSlot = some slot) :
    s.findsNumber v false [.pair 1 (wordNat p) (octetPair slot 0) 0 v.sourceAddr] p (.lentTo v.sourceAddr slot) := by
  have hlook := (lookup_allocates top hx hf hones).trans (allocate_lends top hp hs)
  obtain ⟨d, hd, hlent⟩ := lendNumber_entryMoved p slot v.sourceAddr s.chip
  rw [hd] at hlook
  exact stageTwo_number h hlook hlent

variable (hfull : s.chip.emptyNumber = none ∨ s.chip.freeSlot = none)
include hfull

/-- The oldest proxy is reclaimed, and its number lent (R72). -/
theorem stageTwo_reclaims {p slot : Nat} (hp : s.chip.oldestProxy = some p) (hs : s.chip.lowestFree p slot) :
    s.findsNumber v false [.pair 2 (wordNat p) 0 0 (s.chip.station p).addr,
      .pair 1 (wordNat p) (octetPair slot 0) 0 v.sourceAddr] p (.lentTo v.sourceAddr slot) := by
  have hlook := (lookup_allocates top hx hf hones).trans (allocate_reclaims top hfull)
  obtain ⟨d, hd, hlent⟩ := lendNumber_entryMoved p slot v.sourceAddr
    (recordEvent (evProxyReclaimed p (s.chip.station p).addr) (emptyStation p s.chip))
  rw [hp, Option.elim_some, reclaimNumber_eq hs, hd] at hlook
  exact stageTwo_number h hlook ((reclaim_entryMoved p s.chip).trans hlent)

/-- No number at all: the first such failure is recorded (R73). -/
theorem stageTwo_poolEmpty (hp : s.chip.oldestProxy = none) :
    s.findsNone v a 9 true (if s.chip.stn.exhausted then [] else [.pair 5 0 0 0 v.sourceAddr]) := by
  have hlook := (lookup_allocates top hx hf hones).trans (allocate_reclaims top hfull)
  obtain ⟨d, hd, hstn, hmoved⟩ := poolEmpty_entryMoved (linkFrame_noReactions h) v.sourceAddr
  rw [hp, Option.elim_none, hd] at hlook
  exact stageTwo_noNumber h hlook hmoved hstn rfl

end LinkFrame

/-- Settles O50: each case of the lookup is a lemma above. -/
theorem lookupsLendNumbers : Obligations.LookupsLendNumbers := by
  unfold Obligations.LookupsLendNumbers
  intro v a s h x range st proxy clashes held lowestSlot spare looked none' lent given
  refine ⟨stageTwo_clashes h, fun hx p hp => stageTwo_held h hx hp, fun hx hheld hones => ?_,
    fun hx hheld hones => ⟨fun p slot before after hrange hbefore hp hslot => ?_, fun hfull => ?_⟩⟩
  all_goals have hf : s.chip.findAddr x = none := findAddr_none hheld
  · exact stageTwo_allOnes h hx hf hones
  · have hproxy : (s.chip.station p).kind ≠ .proxy := fun k => nomatch hp.symm.trans k
    exact stageTwo_lends h hx hf hones (emptyNumber_eq_some hrange hbefore hp)
      (freeSlot_of_lowestFree hproxy (lowestFree_of_zero hproxy hslot))
  · have hnone := hfull.imp emptyNumber_none freeSlot_none
    refine ⟨fun p slot hp hs hold hslot => ?_, fun hspare => ?_⟩
    · exact stageTwo_reclaims h hx hf hones hnone (oldestProxy_eq_some hp hs hold) hslot
    · exact stageTwo_poolEmpty h hx hf hones hnone (oldestProxy_none hspare)

end Sys2Proof.Machine

/-! PROOF. What a print frame may change of the part, its stage two whatever the print unit does with it (R92, R132),
and a job's end (R143). -/

namespace Sys2Proof.Machine

/-! ### One station's entry and the print unit replaced, with events -/

/-- The table changed in entry `n` at most, which is `e` now, the print unit is `u` now, and the events `l` handed on;
nothing else. -/
def Chip.prints (c d : Chip) (n : Nat) (e : Station) (u : PrintUnit) (l : List Logged) : Prop :=
  d = { c with path := d.path, evt := d.evt, stn := { c.stn with table := d.stn.table }, prt := u } ∧ c.only d l ∧
    ∀ m, d.station m = if m = n then e else c.station m

section Prints

variable {c d f : Chip} {n : Nat} {e e' : Station} {u u' : PrintUnit} {l m : List Logged}

theorem Chip.entryMoved.prints (h : c.entryMoved d n e l) : c.prints d n e c.prt l := by
  obtain ⟨hframe, ⟨hgrew, hother⟩, hlogs, hst⟩ := h
  exact ⟨hframe, ⟨hgrew, hlogs, hother⟩, hst⟩

theorem recordEvent_prints (n : Nat) (x : Event) (c : Chip) :
    c.prints (recordEvent x c) n (c.station n) c.prt [x.logged] := (recordEvent_entryMoved n x c).prints

theorem putStation_prints (n : Nat) (e : Station) (c : Chip) : c.prints (c.putStation n e) n e c.prt [] :=
  (putStation_entryMoved n e c).prints

theorem prints_refl (n : Nat) (c : Chip) : c.prints c n (c.station n) c.prt [] := (entryMoved_refl n c).prints

theorem withPrt_prints (n : Nat) (u : PrintUnit) (c : Chip) : c.prints (c.withPrt u) n (c.station n) u [] :=
  ⟨rfl, only_of_path rfl rfl, (entryMoved_refl n c).2.2.2⟩

theorem Chip.prints.ctl (h : c.prints d n e u l) : d.ctl = c.ctl := by rw [h.1]

theorem Chip.prints.prt (h : c.prints d n e u l) : d.prt = u := by rw [h.1]

theorem Chip.prints.self (h : c.prints d n e u l) : d.station n = e := (h.2.2 n).trans (if_pos rfl)

theorem Chip.prints.seen (h : c.prints d n e u l) : c.seen d := by
  obtain ⟨hd, ⟨hgrew, -, hother⟩, -⟩ := id h
  exact ⟨h.ctl, by rw [hd], hgrew, hother⟩

theorem Chip.prints.trans (h : c.prints d n e u l) (k : d.prints f n e' u' m) : c.prints f n e' u' (l ++ m) := by
  have hb : d.base = c.base := by rw [h.1]; rfl
  have hc := h.ctl
  obtain ⟨h1, h2, h3⟩ := h
  obtain ⟨k1, k2, k3⟩ := k
  refine ⟨?_, only_trans hb hc h2 k2, fun x => ?_⟩
  · conv_lhs => rw [k1, h1]
  · rw [k3, h3]
    split <;> rfl

/-- The print unit replaced at last. -/
theorem Chip.prints.withPrt (h : c.prints d n e u l) (u' : PrintUnit) : c.prints (d.withPrt u') n e u' l := by
  have k := h.trans (withPrt_prints n u' d)
  rwa [h.self, List.append_nil] at k

/-- An event at last. -/
theorem Chip.prints.record (h : c.prints d n e u l) (x : Event) :
    c.prints (recordEvent x d) n e u (l ++ [x.logged]) := by
  have k := h.trans (recordEvent_prints n x d)
  rwa [h.self, h.prt] at k

/-- The part after the release of a frame that only an entry, the print unit and events were changed for. -/
theorem released_of_prints (h : c.prints d n e u l) (hf : f = { d with path := f.path, frm := f.frm })
    (hforms : ∀ o, o ≠ .frame → d.formed f o []) :
    f = { c.over f with frm := f.frm, stn := { c.stn with table := f.stn.table }, prt := u } ∧
      (∀ m, f.station m = if m = n then e else c.station m) ∧ c.logs f l ∧ c.formed f .print [] := by
  obtain ⟨hd, ⟨-, ⟨hevt, hlogs⟩, hother⟩, hst⟩ := h
  have hctl : f.ctl = c.ctl := by rw [hf, hd]
  have hstn : f.stn = d.stn := by rw [hf]
  have hfevt : f.evt = d.evt := by rw [hf]
  refine ⟨?_, fun m => (Chip.station_of_stn hstn m).trans (hst m), ⟨hfevt.trans hevt, ?_⟩,
    formed_trans (l := []) (hother .print (by decide)) (hforms .print (by decide))⟩
  · conv_lhs => rw [hf, hd]
    simp only [Chip.over, hctl, hstn, hfevt]
  · simpa using formed_trans hlogs (hforms .event (by decide))

end Prints

/-! ### Stage two of a print frame, whatever the print unit does with it (R92, R132) -/

/-- The part `c` as a hearing leaves it for the print unit: queue, event unit and station table are given. -/
def Chip.heardWith (c : Chip) (p : PathUnit) (x : EventUnit) (tb : Table Station) : Chip :=
  { c with path := p, evt := x, stn := { c.stn with table := tb } }

/-- The event of a hearing at home, when there is one (R54, R57). -/
def Station.heardEvents (n : Nat) (e : Station) : List Logged :=
  if e.presence = .silent then [presenceEvent n .silent .active] else []

/-- A print frame that the print unit answers by `o`; `e` is the owner's entry after it, and `R` tells what the print
unit made of itself. -/
theorem stageTwo_print {s : State} {v : Slot} {kind : Nat} (h : s.chip.printFrame v kind)
    (hk : 16 ≤ kind ∧ kind ≤ 19) (hn : s.chip.noneSuspended) {o : PrintOutcome} (ho : o.held = false)
    {e : Station} {l : List Logged} {R : PrintUnit → Prop}
    (hp : ∀ p x tb, (s.chip.heardWith p x tb).station (v.num 1) =
        (s.chip.station (v.num 1)).heardHome s.chip.stn.clock →
      ∃ d u, printFrame top (v.printFrame .coax (v.num 1)) (s.chip.heardWith p x tb) = (o, d) ∧
        (s.chip.heardWith p x tb).prints d (v.num 1) e u l ∧ R u) :
    ∃ t, exec (.stageTwo .coax) s = .next t ∧
      s.released t .coax v (printVerdict (v.num 1) (v.num 0) o.detail (256 * (o.job % 32) + 8192 * (o.printer % 8))
        o.reason) ∧
      s.chip.formed t.chip .print [] ∧
      t.chip = { s.chip.over t.chip with
        frm := t.chip.frm, stn := { s.chip.stn with table := t.chip.stn.table }, prt := t.chip.prt } ∧
      (∀ m, t.chip.station m = if m = v.num 1 then e else s.chip.station m) ∧
      s.chip.logs t.chip ((s.chip.station (v.num 1)).heardEvents (v.num 1) ++ l) ∧ R t.chip.prt := by
  have hmoved := hearHome_fixed_entryMoved hn top (v.num 1)
  have heq : hearHome top (v.num 1) s.chip = s.chip.heardWith (hearHome top (v.num 1) s.chip).path
      (hearHome top (v.num 1) s.chip).evt (hearHome top (v.num 1) s.chip).stn.table := hmoved.1
  obtain ⟨d, u, hd, hprints, hu⟩ := hp _ _ _ (heq ▸ hmoved.self)
  rw [← heq] at hd hprints
  have hall := hmoved.prints.trans hprints
  obtain ⟨⟨⟨⟨hv, -⟩, -⟩, -⟩, -⟩ := id h
  obtain ⟨t, ht, hrel, hchip, hforms⟩ := stageTwo_released hv (evaluate_print h hk hn hd) hall.seen
  rw [unstruck_toPrint, ho, bitNat, if_neg Bool.false_ne_true, Nat.mul_zero, Nat.zero_add] at hrel
  obtain ⟨hover, hst, hlogs, hprint⟩ := released_of_prints hall hchip hforms
  have hprt : t.chip.prt = u := by rw [hover]
  rw [← hprt] at hover hu
  exact ⟨t, ht, hrel, hprint, hover, hst, hlogs, hu⟩

/-! ### What is read of a print unit -/

/-- Job `j`, printer `p` and spool entry `i` of a print unit. -/
def PrintUnit.job (u : PrintUnit) (j : Nat) : Job := tget Job.blank u.jobs j
def PrintUnit.printer (u : PrintUnit) (p : Nat) : Printer := tget Printer.blank u.printers p
def PrintUnit.spoolEntry (u : PrintUnit) (i : Nat) : Option SpoolEntry := tget none u.spool i

theorem Chip.prt_job (c : Chip) (j : Nat) : c.prt.job j = c.job j := rfl
theorem Chip.prt_printer (c : Chip) (p : Nat) : c.prt.printer p = c.printer p := rfl
theorem Chip.prt_spoolEntry (c : Chip) (i : Nat) : c.prt.spoolEntry i = c.spoolEntry i := rfl

/-- From `a` to `b` job `j` has become `w` and printer `p` has become `v`; no other job, no other printer, and no toggle
has changed. -/
def PrintUnit.becomes (a b : PrintUnit) (j : Nat) (w : Job) (p : Nat) (v : Printer) : Prop :=
  (∀ i, b.job i = if i = j then w else a.job i) ∧ (∀ q, b.printer q = if q = p then v else a.printer q) ∧
    b.toggles = a.toggles

section Becomes

variable {a b : PrintUnit} {d : Chip} {j p : Nat} {w : Job} {v : Printer}

theorem becomes_refl (j p : Nat) (a : PrintUnit) : a.becomes a j (a.job j) p (a.printer p) :=
  ⟨fun i => by split <;> simp_all, fun q => by split <;> simp_all, rfl⟩

theorem PrintUnit.becomes.putJob (h : a.becomes d.prt j w p v) (w' : Job) :
    a.becomes (d.putJob j w').prt j w' p v := by
  obtain ⟨hjob, hprinter, htoggles⟩ := h
  refine ⟨fun i => (job_putJob j i w' d).trans ?_, hprinter, htoggles⟩
  rw [← Chip.prt_job, hjob]
  split <;> rfl

theorem PrintUnit.becomes.putPrinter (h : a.becomes d.prt j w p v) (v' : Printer) :
    a.becomes (d.putPrinter p v').prt j w p v' := by
  obtain ⟨hjob, hprinter, htoggles⟩ := h
  refine ⟨hjob, fun q => (printer_putPrinter p q v' d).trans ?_, htoggles⟩
  rw [← Chip.prt_printer, hprinter]
  split <;> rfl

theorem putJob_becomes (j : Nat) (w : Job) (p : Nat) (c : Chip) :
    c.prt.becomes (c.putJob j w).prt j w p (c.printer p) := (becomes_refl j p c.prt).putJob w

theorem PrintUnit.becomes.trans {c : PrintUnit} {w' : Job} {v' : Printer} (h : a.becomes b j w p v)
    (k : b.becomes c j w' p v') : a.becomes c j w' p v' := by
  obtain ⟨h1, h2, h3⟩ := h
  obtain ⟨k1, k2, k3⟩ := k
  refine ⟨fun i => ?_, fun q => ?_, k3.trans h3⟩
  · rw [k1, h1]
    split <;> rfl
  · rw [k2, h2]
    split <;> rfl

theorem PrintUnit.becomes.job_self (h : a.becomes b j w p v) : b.job j = w := (h.1 j).trans (if_pos rfl)

theorem PrintUnit.becomes.printer_self (h : a.becomes b j w p v) : b.printer p = v := (h.2.1 p).trans (if_pos rfl)

theorem PrintUnit.becomes.others (h : a.becomes b j w p v) :
    (∀ i, i ≠ j → b.job i = a.job i) ∧ ∀ q, q ≠ p → b.printer q = a.printer q :=
  ⟨fun i hi => (h.1 i).trans (if_neg hi), fun q hq => (h.2.1 q).trans (if_neg hq)⟩

end Becomes

/-! ### A job's end (R143) -/

/-- An entry that names job `j` as its open job no longer. -/
def Station.without (j : Nat) (e : Station) : Station := if e.openJob = some j then { e with openJob := none } else e

theorem Station.without_of_some {j : Nat} {e : Station} (h : e.openJob = some j) :
    e.without j = { e with openJob := none } := if_pos h

theorem Station.without_without (j : Nat) (e : Station) : (e.without j).without j = e.without j := by
  unfold Station.without
  split <;> simp_all

theorem clearOpenJob_prints (n j : Nat) (c : Chip) :
    c.prints (clearOpenJob n j c) n ((c.station n).without j) c.prt [] := by
  unfold clearOpenJob Station.without
  split
  · exact putStation_prints ..
  · exact prints_refl n c

/-- The event of job `j`'s end (section 9.10). -/
def Job.ending (j : Nat) (v : Job) : Event :=
  v.reason.elim (evJobDone v.printer j v.owner v.closed v.printed) (evJobAbandoned v.printer j v.owner)

theorem logged_jobDone (p j owner : Nat) (how : Closed) (printed : Nat) : (evJobDone p j owner how printed).logged =
    jobEvent 5 p j (octetPair owner how.code) (wordNat printed) := rfl

theorem logged_jobAbandoned (p j owner : Nat) (r : AbandonReason) : (evJobAbandoned p j owner r).logged =
    jobEvent 6 p j (octetPair owner r.code) 0 :=
  congrArg (Logged.plain .job 6 (wordNat (p * 256 + j)) (octetPair owner r.code)) octetPair_zero

/-- A job's end as far as its record and the claim: its event, and the open-job field. -/
def endAnnounced (j : Nat) (c : Chip) : Chip := clearOpenJob (c.job j).owner j (recordEvent ((c.job j).ending j) c)

theorem endAnnounced_prints (j : Nat) (c : Chip) : c.prints (endAnnounced j c) (c.job j).owner
    ((c.station (c.job j).owner).without j) c.prt [((c.job j).ending j).logged] := by
  have h := recordEvent_prints (c.job j).owner ((c.job j).ending j) c
  have k := h.trans (clearOpenJob_prints (c.job j).owner j _)
  rwa [h.self, h.prt] at k

/-- With no reaction in force a job's end fires none. -/
theorem endJob_eq {c : Chip} (hn : c.noReactions) (j : Nat) (rel : Nat → Chip → Chip) : endJob rel top j c =
    if (c.printer (c.job j).printer).claim = some j then
      rel (c.job j).printer (((endAnnounced j c).putPrinter (c.job j).printer
        { c.printer (c.job j).printer with claim := none }).putJob j Job.blank)
    else (endAnnounced j c).putJob j Job.blank := by
  have hfire : ∀ x v, top v (recordEvent x c) = recordEvent x c := fun x v =>
    top_of_noReactions (noReactions_of_ctl (recordEvent_ctl c x) hn) v
  rw [← Chip.printer_of_prt (endAnnounced_prints j c).prt]
  unfold endJob endAnnounced Job.ending
  cases hr : (c.job j).reason <;> simp only [hr, hfire, Option.elim] <;> rfl

section Ended

variable {c : Chip} {j : Nat} (hn : c.noReactions)
include hn

/-- A job that is not its printer's claimant ends. -/
theorem endJob_unclaimed (hc : (c.printer (c.job j).printer).claim ≠ some j) (rel : Nat → Chip → Chip) :
    c.prints (endJob rel top j c) (c.job j).owner ((c.station (c.job j).owner).without j)
      (c.putJob j Job.blank).prt [((c.job j).ending j).logged] := by
  have h := endAnnounced_prints j c
  rw [endJob_eq hn, if_neg hc]
  have k := h.withPrt (c.putJob j Job.blank).prt
  have hput : (endAnnounced j c).putJob j Job.blank = (endAnnounced j c).withPrt (c.putJob j Job.blank).prt := by
    rw [Chip.putJob, h.prt]
    rfl
  rwa [hput]

/-- A claimant ends, and passes its claim to no job. -/
theorem finishJob_claimed (hc : (c.printer (c.job j).printer).claim = some j)
    (hq : (c.printer (c.job j).printer).queue = []) (ha : c.awaitingPrinter (c.job j).printer = none) :
    c.prints (finishJob top j c) (c.job j).owner ((c.station (c.job j).owner).without j)
      ((c.putPrinter (c.job j).printer { c.printer (c.job j).printer with claim := none }).putJob j Job.blank).prt
      [((c.job j).ending j).logged] := by
  set p := (c.job j).printer
  have h := endAnnounced_prints j c
  set u := ((c.putPrinter p { c.printer p with claim := none }).putJob j Job.blank).prt with hu
  have hput : ((endAnnounced j c).putPrinter p { c.printer p with claim := none }).putJob j Job.blank =
      (endAnnounced j c).withPrt u := by
    rw [hu, Chip.putPrinter, h.prt]
    rfl
  have hprinter : ((endAnnounced j c).withPrt u).printer p = { c.printer p with claim := none } :=
    (printer_putPrinter p p _ c).trans (if_pos rfl)
  have hawait : ((endAnnounced j c).withPrt u).awaitingPrinter p = none := by
    rw [← ha]
    exact congrArg (fun k : ControlUnit => tget none k.awaitingPrinters p) h.ctl
  have hrel : afterRelease (serve top) top p ((endAnnounced j c).withPrt u) = (endAnnounced j c).withPrt u := by
    rw [afterRelease, applyAwaiting, hawait]
    exact serve_idle top (by rw [hprinter]; exact ⟨rfl, hq⟩)
  rw [finishJob, endJob_eq hn, if_pos hc, hput, hrel]
  exact h.withPrt u

end Ended

end Sys2Proof.Machine

/-! PROOF. PRINT_CLOSE and PRINT_ABORT (R138, R139, R142). -/

namespace Sys2Proof.Machine

/-! ### Tests for a job's end (R143) -/

theorem testEnd_over {c : Chip} {j : Nat} (h : c.jobOver j = true) (g : Give) : testEnd g j c = finishJob g j c :=
  if_pos h

theorem testEnd_goesOn {c : Chip} {j : Nat} (h : c.jobOver j = false) (g : Give) : testEnd g j c = c :=
  if_neg (by simp [h])

/-- A job not abandoned is at its end when it is CLOSING, or is to be so on its resumption, and has no text. -/
theorem jobOver_of_kept {c : Chip} {j : Nat} (h : (c.job j).reason = none) : c.jobOver j =
    ((decide ((c.job j).state = .closing) ||
      (decide ((c.job j).state = .suspended) && decide ((c.job j).resume = .closing))) && (c.job j).spool.isEmpty) := by
  simp only [Chip.jobOver, h]

/-- An abandoned job in use is at its end when none of its text is in the ring. -/
theorem jobOver_of_abandoned {c : Chip} {j : Nat} {r : AbandonReason} (h : (c.job j).reason = some r)
    (hf : (c.job j).state ≠ .free) : c.jobOver j = !c.ringBusy j := by
  simp only [Chip.jobOver, h, ne_eq, hf, not_false_eq_true, decide_true, Bool.true_and]

/-! ### PRINT_CLOSE (R138) -/

theorem closeAs_waiting {v : Job} (h : v.state = .waiting) (how : Closed) :
    v.closeAs how = { v with closed := how, idle := none } := by
  simp only [Job.closeAs, h]

theorem closeAs_printing {v : Job} (h : v.state = .printing) (how : Closed) :
    v.closeAs how = { v with state := .closing, closed := how, idle := none } := by
  simp only [Job.closeAs, h]

/-- A job closed, before the test for its end. -/
theorem closed_prints (c : Chip) (n j : Nat) (w : Job) : c.prints (clearOpenJob n j (c.putJob j w)) n
    ((c.station n).without j) (c.putJob j w).prt [] :=
  (withPrt_prints n _ c).trans (clearOpenJob_prints n j (c.putJob j w))

section Close

variable {c : Chip} {f : PrintFrame} {j : Nat} (ho : (c.station f.owner).openJob = some j)
include ho

theorem printClose_eq (g : Give) : printClose g f c = (.of 3 j (c.job j),
    testEnd g j (clearOpenJob f.owner j (c.putJob j ((c.job j).closeAs .close)))) := by
  simp only [printClose, ho]

/-- What a close leaves of a job, `w`, that has more to print or is still WAITING. -/
theorem printClose_goesOn {w : Job} (hw : (c.job j).closeAs .close = w) (hr : w.reason = none)
    (hs : w.state = .waiting ∨ (w.state = .closing ∧ w.spool ≠ [])) (g : Give) :
    ∃ d u, printClose g f c = (.of 3 j (c.job j), d) ∧
      c.prints d f.owner { c.station f.owner with openJob := none } u [] ∧
      c.prt.becomes u j w (c.job j).printer (c.printer (c.job j).printer) ∧ u.spool = c.prt.spool := by
  have h := closed_prints c f.owner j w
  have hbecomes := putJob_becomes j w (c.job j).printer c
  have hjob : (clearOpenJob f.owner j (c.putJob j w)).job j = w :=
    (Chip.job_of_prt h.prt j).trans hbecomes.job_self
  have hover : (clearOpenJob f.owner j (c.putJob j w)).jobOver j = false := by
    rw [jobOver_of_kept (by rw [hjob]; exact hr), hjob]
    obtain hs | ⟨hs, ht⟩ := hs
    · simp [hs]
    · simp [ht]
  rw [printClose_eq ho, hw, testEnd_goesOn hover, ← Station.without_of_some ho]
  exact ⟨_, _, rfl, h, hbecomes, rfl⟩

/-- A close ends a claimant that has no text; its claim passes to no job. -/
theorem printClose_ends (hn : c.noReactions) (hown : (c.job j).owner = f.owner) (hr : (c.job j).reason = none)
    (hs : (c.job j).state = .printing) (ht : (c.job j).spool = [])
    (hc : (c.printer (c.job j).printer).claim = some j) (hq : (c.printer (c.job j).printer).queue = [])
    (ha : c.awaitingPrinter (c.job j).printer = none) :
    ∃ d u, printClose top f c = (.of 3 j (c.job j), d) ∧
      c.prints d f.owner { c.station f.owner with openJob := none } u
        [jobEvent 5 (c.job j).printer j (octetPair f.owner 1) (wordNat (c.job j).printed)] ∧
      c.prt.becomes u j Job.blank (c.job j).printer { c.printer (c.job j).printer with claim := none } ∧
      u.spool = c.prt.spool := by
  set p := (c.job j).printer with hp
  set w : Job := { c.job j with state := .closing, closed := .close, idle := none } with hw
  have h := closed_prints c f.owner j w
  have hbecomes := putJob_becomes j w p c
  rw [printClose_eq ho, closeAs_printing hs, ← hw]
  set d := clearOpenJob f.owner j (c.putJob j w)
  rw [← h.prt] at hbecomes
  have hjob : d.job j = w := hbecomes.job_self
  have hprinter : d.printer p = c.printer p := hbecomes.printer_self
  have hjp : (d.job j).printer = p := by rw [hjob]
  have hjo : (d.job j).owner = f.owner := by rw [hjob]; exact hown
  have hover : d.jobOver j = true := by
    rw [jobOver_of_kept (by rw [hjob]; exact hr), hjob, hw, ht]
    rfl
  have hawait : d.awaitingPrinter p = none := by
    rw [← ha]
    exact congrArg (fun k : ControlUnit => tget none k.awaitingPrinters p) h.ctl
  have hend := finishJob_claimed (noReactions_of_ctl h.ctl hn) (c := d) (j := j) (by rw [hjp, hprinter]; exact hc)
    (by rw [hjp, hprinter]; exact hq) (by rw [hjp]; exact hawait)
  have hevent : (w.ending j).logged = jobEvent 5 p j (octetPair f.owner 1) (wordNat (c.job j).printed) := by
    rw [Job.ending, hw, hr, ← hown]
    exact logged_jobDone ..
  rw [hjo, hjp, hprinter, h.self, hjob, Station.without_without, Station.without_of_some ho, hevent] at hend
  rw [testEnd_over hover]
  refine ⟨_, _, rfl, h.trans hend, (hbecomes.putPrinter _).putJob _, ?_⟩
  show d.prt.spool = _
  rw [h.prt]
  rfl

end Close

/-! ### Entries freed (R136) -/

/-- Entry `i`, if it is held, is job `j`'s; if not, it is not of the job's text. -/
def Chip.entryOf (c : Chip) (j i : Nat) : Prop :=
  (∃ x, c.spoolEntry i = some x ∧ x.job = j) ∨ (c.spoolEntry i = none ∧ i ∉ (c.job j).spool)

/-- A job whose text has lost the entries `l`. -/
def Job.lacking (l : List Nat) (v : Job) : Job := { v with spool := v.spool.filter (· ∉ l) }

theorem lacking_of_disjoint {l : List Nat} {v : Job} (h : ∀ i ∈ v.spool, i ∉ l) : v.lacking l = v := by
  rw [Job.lacking, List.filter_eq_self.mpr fun i hi => decide_eq_true (h i hi)]

theorem lacking_cons (i : Nat) (l : List Nat) (v : Job) : (v.lacking [i]).lacking l = v.lacking (i :: l) := by
  simp [Job.lacking, List.filter_filter, Bool.and_comm]

/-- One entry freed: it leaves the job's spool list and returns to the pool. -/
theorem freeEntry_spec {c : Chip} {i j : Nat} (h : c.entryOf j i) (p : Nat) : ∃ u, freeEntry i c = c.withPrt u ∧
    c.prt.becomes u j ((c.job j).lacking [i]) p (c.printer p) ∧
    ∀ k, u.spoolEntry k = if k = i then none else c.spoolEntry k := by
  unfold freeEntry
  obtain ⟨x, hx, rfl⟩ | ⟨hx, hout⟩ := h
  · have hlack : (c.job x.job).lacking [i] = { c.job x.job with spool := (c.job x.job).spool.filter (· ≠ i) } := by
      simp [Job.lacking]
    simp only [hx, hlack]
    exact ⟨_, rfl, putJob_becomes .., fun k => spoolEntry_putSpool ..⟩
  · simp only [hx]
    refine ⟨c.prt, rfl, ?_, fun k => ?_⟩
    · rw [lacking_of_disjoint fun k hk (h : k ∈ [i]) => hout ((List.mem_singleton.mp h : k = i) ▸ hk)]
      exact becomes_refl j p c.prt
    · split
      · next h => rw [h]; exact hx
      · rfl

/-- Entries freed in turn. -/
theorem freeEntries_spec {j : Nat} {l : List Nat} {c : Chip} (hl : ∀ i ∈ l, c.entryOf j i) (p : Nat) :
    ∃ u, l.foldl (fun c i => freeEntry i c) c = c.withPrt u ∧
      c.prt.becomes u j ((c.job j).lacking l) p (c.printer p) ∧
      ∀ i, u.spoolEntry i = if i ∈ l then none else c.spoolEntry i := by
  induction l generalizing c with
  | nil =>
    rw [lacking_of_disjoint fun i _ => List.not_mem_nil]
    exact ⟨c.prt, rfl, becomes_refl j p c.prt, fun i => (if_neg List.not_mem_nil).symm⟩
  | cons i l ih =>
    obtain ⟨a, ha, hbecomes, hentry⟩ := freeEntry_spec (hl i (List.mem_cons_self ..)) p
    have hjob : (c.withPrt a).job j = (c.job j).lacking [i] := hbecomes.job_self
    have hprinter : (c.withPrt a).printer p = c.printer p := hbecomes.printer_self
    have hread : ∀ k, (c.withPrt a).spoolEntry k = if k = i then none else c.spoolEntry k := hentry
    obtain ⟨u, hu, hrest, hentries⟩ := ih (c := c.withPrt a) fun k hk => by
      rw [Chip.entryOf, hread, hjob]
      by_cases h : k = i
      · exact .inr ⟨if_pos h, by simp [Job.lacking, h]⟩
      · rw [if_neg h]
        exact (hl k (List.mem_cons_of_mem _ hk)).imp_right fun ⟨hnone, hout⟩ =>
          ⟨hnone, fun hmem => hout (List.mem_of_mem_filter hmem)⟩
    rw [hjob, hprinter, lacking_cons] at hrest
    rw [List.foldl_cons, ha]
    refine ⟨u, hu, hbecomes.trans hrest, fun k => ?_⟩
    rw [hentries, hread]
    simp only [List.mem_cons, ← ite_or, or_comm]

/-! ### A job abandoned (R142) -/

/-- Job `v` abandoned, its text in the ring alone left to it (R142). -/
def Job.givenUp (r : AbandonReason) (inRing : Nat → Bool) (v : Job) : Job :=
  { v with reason := some r, idle := none, grace := none, spool := v.spool.filter inRing }

theorem entryInRing_congr {c d : Chip} {i : Nat} (h : d.spoolEntry i = c.spoolEntry i) :
    d.entryInRing i = c.entryInRing i := by
  simp only [Chip.entryInRing, h]

/-- What is in the ring decides whether an abandoned job goes on. -/
theorem givenUp_ringBusy {c d : Chip} {j : Nat} {w : Job} (hw : w.spool = (c.job j).spool.filter c.entryInRing)
    (hjob : d.job j = w) (hentries : ∀ i, d.spoolEntry i =
      if i ∈ (c.job j).spool ∧ c.entryInRing i = false then none else c.spoolEntry i) :
    d.ringBusy j = c.ringBusy j := by
  have hring : ∀ i, c.entryInRing i = true → d.entryInRing i = true := fun i hi => by
    rw [entryInRing_congr ((hentries i).trans (if_neg (by simp [hi]))), hi]
  rw [Chip.ringBusy, Chip.ringBusy, hjob, hw, List.any_filter]
  refine congrArg (List.any (c.job j).spool) (funext fun i => ?_)
  cases hi : c.entryInRing i
  · rfl
  · simp [hring i hi]

/-- Job `v` given up for a reason, its countdowns stopped. -/
def Job.marked (r : AbandonReason) (v : Job) : Job := { v with reason := some r, idle := none, grace := none }

/-- A printer with job `j` taken off its wait queue. -/
def Printer.unlisted (j : Nat) (v : Printer) : Printer := { v with queue := v.queue.filter (· ≠ j) }

/-- An abandonment's first part: the mark, the open-job field, the wait queue. -/
def abandonMarked (j : Nat) (r : AbandonReason) (c : Chip) : Chip :=
  (clearOpenJob (c.job j).owner j (c.putJob j ((c.job j).marked r))).putPrinter (c.job j).printer
    ((c.printer (c.job j).printer).unlisted j)

theorem abandonMarked_spec (j : Nat) (r : AbandonReason) (c : Chip) :
    c.prints (abandonMarked j r c) (c.job j).owner ((c.station (c.job j).owner).without j) (abandonMarked j r c).prt
        [] ∧
      c.prt.becomes (abandonMarked j r c).prt j ((c.job j).marked r) (c.job j).printer
        ((c.printer (c.job j).printer).unlisted j) ∧
      ∀ i, (abandonMarked j r c).spoolEntry i = c.spoolEntry i := by
  have hclosed := closed_prints c (c.job j).owner j ((c.job j).marked r)
  have hput := putJob_becomes j ((c.job j).marked r) (c.job j).printer c
  rw [← hclosed.prt] at hput
  refine ⟨hclosed.withPrt _, hput.putPrinter _, fun i => ?_⟩
  refine (Chip.prt_spoolEntry ..).symm.trans ?_
  show (clearOpenJob _ j _).prt.spoolEntry i = _
  rw [hclosed.prt]
  rfl

theorem marked_lacking (r : AbandonReason) (inRing : Nat → Bool) (v : Job) :
    (v.marked r).lacking (v.spool.filter fun i => !inRing i) = v.givenUp r inRing := by
  have hkept : v.spool.filter (· ∉ v.spool.filter fun i => !inRing i) = v.spool.filter inRing :=
    List.filter_congr fun i hi => by simp [hi]
  rw [Job.lacking, Job.givenUp, Job.marked, hkept]

section Abandon

variable {c : Chip} {j : Nat} (hf : (c.job j).state ≠ .free) (hr : (c.job j).reason = none)
  (htext : ∀ i ∈ (c.job j).spool, ∃ x, c.spoolEntry i = some x ∧ x.job = j)
include hf hr htext

/-- Everything an abandonment does before the test for the job's end. -/
theorem abandon_spec (r : AbandonReason) (g : Give) :
    ∃ d u, abandon g j r c = testEnd g j (if (c.printer (c.job j).printer).claim = some j then
        d.putJob j { (c.job j).givenUp r c.entryInRing with state := .closing, resume := .free, trunk := 0 } else d) ∧
      c.prints d (c.job j).owner ((c.station (c.job j).owner).without j) u [] ∧
      c.prt.becomes u j ((c.job j).givenUp r c.entryInRing) (c.job j).printer
        ((c.printer (c.job j).printer).unlisted j) ∧
      ∀ i, u.spoolEntry i = if i ∈ (c.job j).spool ∧ c.entryInRing i = false then none else c.spoolEntry i := by
  obtain ⟨hprints, hmarked, hsame⟩ := abandonMarked_spec j r c
  have hbegun : (clearOpenJob (c.job j).owner j (c.putJob j ((c.job j).marked r))).printer (c.job j).printer =
      c.printer (c.job j).printer := Chip.printer_of_prt (clearOpenJob_prints ..).prt _
  have hring : (abandonMarked j r c).entryInRing = c.entryInRing := funext fun i => entryInRing_congr (hsame i)
  have hjob : (abandonMarked j r c).job j = (c.job j).marked r := hmarked.job_self
  have hprinter : (abandonMarked j r c).printer (c.job j).printer = (c.printer (c.job j).printer).unlisted j :=
    hmarked.printer_self
  obtain ⟨u, hu, hfreed, hentries⟩ := freeEntries_spec (c := abandonMarked j r c) (j := j)
    (l := (c.job j).spool.filter fun i => !c.entryInRing i)
    (fun i hi => .inl (hsame i ▸ htext i (List.mem_of_mem_filter hi))) (c.job j).printer
  rw [hjob, marked_lacking, hprinter] at hfreed
  set d := (abandonMarked j r c).withPrt u with hd
  have hbecomes := hmarked.trans hfreed
  have hdj : d.job j = (c.job j).givenUp r c.entryInRing := hbecomes.job_self
  have hdp : d.printer (c.job j).printer = (c.printer (c.job j).printer).unlisted j := hbecomes.printer_self
  have habandon : abandon g j r c = testEnd g j (if (d.printer (c.job j).printer).claim = some j then
      d.putJob j { d.job j with state := .closing, resume := .free, trunk := 0 } else d) := by
    rw [← hu, ← hring, abandonMarked, ← hbegun]
    exact if_neg fun h => h.elim hf fun h => by simp [hr] at h
  rw [hdj, hdp] at habandon
  refine ⟨d, u, habandon, hprints.withPrt u, hbecomes, fun i => ?_⟩
  rw [hentries, hsame]
  simp only [List.mem_filter, Bool.not_eq_true']

/-- An abandoned job with nothing in the ring, not the claimant, ends at once. -/
theorem abandon_ends (hn : c.noReactions) (hb : c.ringBusy j = false)
    (hc : (c.printer (c.job j).printer).claim ≠ some j) (r : AbandonReason) :
    ∃ u, c.prints (abandon top j r c) (c.job j).owner ((c.station (c.job j).owner).without j) u
        [jobEvent 6 (c.job j).printer j (octetPair (c.job j).owner r.code) 0] ∧
      c.prt.becomes u j Job.blank (c.job j).printer ((c.printer (c.job j).printer).unlisted j) ∧
      ∀ i, u.spoolEntry i = if i ∈ (c.job j).spool then none else c.spoolEntry i := by
  obtain ⟨d, u, habandon, hprints, hbecomes, hentries⟩ := abandon_spec hf hr htext r top
  obtain rfl := hprints.prt
  have hjob : d.job j = (c.job j).givenUp r c.entryInRing := hbecomes.job_self
  have hover : d.jobOver j = true := by
    rw [jobOver_of_abandoned (r := r) (by rw [hjob]; rfl) (by rw [hjob]; exact hf),
      givenUp_ringBusy (c := c) rfl hjob hentries, hb]
    rfl
  have hjp : (d.job j).printer = (c.job j).printer := by rw [hjob]; rfl
  have howner : (d.job j).owner = (c.job j).owner := by rw [hjob]; rfl
  have hprinter : d.printer (c.job j).printer = (c.printer (c.job j).printer).unlisted j := hbecomes.printer_self
  have hend := endJob_unclaimed (noReactions_of_ctl hprints.ctl hn) (by rw [hjp, hprinter]; exact hc)
    (afterRelease (serve top) top)
  rw [howner, hprints.self, Station.without_without, hjob,
    show (((c.job j).givenUp r c.entryInRing).ending j).logged = _ from logged_jobAbandoned ..] at hend
  rw [habandon, if_neg hc, testEnd_over hover]
  refine ⟨_, hprints.trans hend, hbecomes.putJob _, fun i => (hentries i).trans ?_⟩
  have hring : i ∈ (c.job j).spool → c.entryInRing i = false := fun hi =>
    Bool.eq_false_iff.mpr (List.any_eq_false.mp hb i hi)
  exact if_congr ⟨And.left, fun hi => ⟨hi, hring hi⟩⟩ rfl rfl

/-- An abandoned claimant with text in the ring is CLOSING (assumption 36). -/
theorem abandon_closes (hb : c.ringBusy j = true) (hc : (c.printer (c.job j).printer).claim = some j)
    (r : AbandonReason) (g : Give) :
    ∃ u, c.prints (abandon g j r c) (c.job j).owner ((c.station (c.job j).owner).without j) u [] ∧
      c.prt.becomes u j
        { (c.job j).givenUp r c.entryInRing with state := .closing, resume := .free, trunk := 0 } (c.job j).printer
        ((c.printer (c.job j).printer).unlisted j) ∧
      ∀ i, u.spoolEntry i = if i ∈ (c.job j).spool ∧ c.entryInRing i = false then none else c.spoolEntry i := by
  obtain ⟨d, u, habandon, hprints, hbecomes, hentries⟩ := abandon_spec hf hr htext r g
  obtain rfl := hprints.prt
  have hput := hbecomes.putJob
    { (c.job j).givenUp r c.entryInRing with state := .closing, resume := .free, trunk := 0 }
  have hgoesOn : (d.putJob j { (c.job j).givenUp r c.entryInRing with
      state := .closing, resume := .free, trunk := 0 }).jobOver j = false := by
    rw [jobOver_of_abandoned (r := r) (congrArg Job.reason hput.job_self) fun h =>
        JobState.noConfusion ((congrArg Job.state hput.job_self).symm.trans h),
      givenUp_ringBusy rfl hput.job_self hentries, hb]
    rfl
  rw [habandon, if_pos hc, testEnd_goesOn hgoesOn]
  exact ⟨_, hprints.withPrt _, hput, hentries⟩

end Abandon

/-! ### PRINT_ABORT (R139) -/

/-- An abort is an abandonment of the owner's open job. -/
theorem printAbort_of {c : Chip} {f : PrintFrame} {j : Nat} (ho : (c.station f.owner).openJob = some j)
    (hown : (c.job j).owner = f.owner) {g : Give} {l : List Logged} {R : PrintUnit → Prop}
    (h : ∃ u, c.prints (abandon g j .aborted c) (c.job j).owner ((c.station (c.job j).owner).without j) u l ∧ R u) :
    ∃ d u, printAbort g f c = (.of 1 j (c.job j), d) ∧
      c.prints d f.owner { c.station f.owner with openJob := none } u l ∧ R u := by
  obtain ⟨u, hprints, hR⟩ := h
  rw [hown, Station.without_of_some ho] at hprints
  exact ⟨_, u, by rw [printAbort, ho], hprints, hR⟩

/-! ### Stage two of PRINT_DATA, PRINT_CLOSE and PRINT_ABORT (R132, R138, R139) -/

section Dispatch

variable {f : PrintFrame} (g : Give) (c : Chip)

theorem printFrame_data (h : f.kind = 17) : printFrame g f c = printData g f c := by
  rw [printFrame, h]
  rfl

theorem printFrame_close (h : f.kind = 18) : printFrame g f c = printClose g f c := by
  rw [printFrame, h]
  rfl

theorem printFrame_abort (h : f.kind = 19) : printFrame g f c = printAbort g f c := by
  rw [printFrame, h]
  rfl

/-- Data, a close and an abort are refused alike without an open job. -/
theorem printFrame_noJob (h : f.kind = 17 ∨ f.kind = 18 ∨ f.kind = 19) (ho : (c.station f.owner).openJob = none) :
    printFrame g f c = (.refused 3, c) := by
  obtain h | h | h := h
  · rw [printFrame_data g c h, printData, ho]
  · rw [printFrame_close g c h, printClose, ho]
  · rw [printFrame_abort g c h, printAbort, ho]

end Dispatch

/-- A print frame after which the owner has no open job; job `j` and printer `p` alone are changed, and `R` tells what
becomes of the spool. `op` is what the frame's kind calls for. -/
theorem stageTwo_unlinks {s : State} {v : Slot} {kind : Nat} (h : s.chip.printFrame v kind)
    (hk : 16 ≤ kind ∧ kind ≤ 19) (hn : s.chip.noneSuspended) {op : Chip → PrintOutcome × Chip}
    (hop : ∀ c, printFrame top (v.printFrame .coax (v.num 1)) c = op c) {o : PrintOutcome} (ho : o.held = false)
    (l : List Logged) (j p : Nat) (w : Job) (x : Printer) (R : PrintUnit → Prop)
    (hp : ∀ q y tb, ((s.chip.heardWith q y tb).station (v.num 1)).openJob = (s.chip.station (v.num 1)).openJob →
      ∃ d u, op (s.chip.heardWith q y tb) = (o, d) ∧
        (s.chip.heardWith q y tb).prints d (v.num 1)
          { (s.chip.heardWith q y tb).station (v.num 1) with openJob := none } u l ∧
        s.chip.prt.becomes u j w p x ∧ R u) :
    ∃ t, exec (.stageTwo .coax) s = .next t ∧
      (s.released t .coax v (printVerdict (v.num 1) (v.num 0) o.detail (256 * (o.job % 32) + 8192 * (o.printer % 8))
          o.reason) ∧
        s.chip.formed t.chip .print [] ∧
        t.chip = { s.chip.over t.chip with
          frm := t.chip.frm, stn := { s.chip.stn with table := t.chip.stn.table }
          prt := { s.chip.prt with
            jobs := t.chip.prt.jobs, spool := t.chip.prt.spool, printers := t.chip.prt.printers } } ∧
        (∀ m, t.chip.station m = if m = v.num 1 then
          { (s.chip.station (v.num 1)).heardHome s.chip.stn.clock with openJob := none } else s.chip.station m) ∧
        s.chip.logs t.chip ((s.chip.station (v.num 1)).heardEvents (v.num 1) ++ l)) ∧
      s.chip.prt.becomes t.chip.prt j w p x ∧ R t.chip.prt := by
  obtain ⟨t, ht, hrel, hformed, hover, hst, hlogs, hbecomes, hR⟩ := stageTwo_print h hk hn ho (l := l)
    (e := { (s.chip.station (v.num 1)).heardHome s.chip.stn.clock with openJob := none })
    (R := fun u => s.chip.prt.becomes u j w p x ∧ R u) fun q y tb hheard => by
      obtain ⟨d, u, hd, hprints, hrest⟩ := hp q y tb (by rw [hheard]; rfl)
      exact ⟨d, u, (hop _).trans hd, hheard ▸ hprints, hrest⟩
  refine ⟨t, ht, ⟨hrel, hformed, hover.trans ?_, hst, hlogs⟩, hbecomes, hR⟩
  dsimp only
  rw [← hbecomes.2.2]

/-- Settles O53: each case is one of the lemmas on a close or an abandonment above. -/
theorem printCloseAndAbortEndJobs : Obligations.PrintCloseAndAbortEndJobs := by
  unfold Obligations.PrintCloseAndAbortEndJobs
  intro v s hn n e heard taken
  set f := v.printFrame .coax n
  constructor
  · intro kind hkind h ho
    obtain ⟨-, -, -, hkd⟩ := id h
    have hkf : v.num 2 = 17 ∨ v.num 2 = 18 ∨ v.num 2 = 19 := by rwa [hkd]
    obtain ⟨t, ht, htaken, -, hprt⟩ := stageTwo_unlinks h (by omega) hn (fun _ => rfl) (o := .refused 3) rfl [] 0 0
      _ _ (· = s.chip.prt) fun q y tb hheard => by
        have hnone : ((s.chip.heardWith q y tb).station n).openJob = none := hheard.trans ho
        have hsame : { (s.chip.heardWith q y tb).station n with openJob := none } =
            (s.chip.heardWith q y tb).station n := by rw [← hnone]
        rw [hsame]
        exact ⟨_, _, printFrame_noJob top _ hkf hnone, prints_refl .., becomes_refl 0 0 _, rfl⟩
    exact ⟨t, ht, htaken, hprt⟩
  · intro j ho hown hr w p words others
    constructor
    · intro h
      obtain ⟨⟨⟨hframe, -⟩, -⟩, -, -, hkd⟩ := id h
      have hreact : s.chip.noReactions := coaxFrame_noReactions hframe
      have hclose := stageTwo_unlinks h (by decide) hn (fun c => printFrame_close top c hkd) (o := .of 3 j w) rfl
      refine ⟨fun hs => ?_, fun hs ht => ?_, fun hs ht hc hq ha => ?_⟩
      · obtain ⟨t, ht, htaken, hbecomes, hspool⟩ := hclose [] j p { w with closed := .close, idle := none }
          (s.chip.printer p) (·.spool = s.chip.prt.spool) fun q y tb hopen =>
            printClose_goesOn (f := f) (c := s.chip.heardWith q y tb) (hopen.trans ho) (closeAs_waiting hs _) hr
              (.inl hs) top
        exact ⟨t, ht, htaken, hbecomes.others, hspool, hbecomes.job_self, hbecomes.printer_self⟩
      · obtain ⟨t, ht, htaken, hbecomes, hspool⟩ := hclose [] j p
          { w with state := .closing, closed := .close, idle := none } (s.chip.printer p)
          (·.spool = s.chip.prt.spool) fun q y tb hopen =>
            printClose_goesOn (f := f) (c := s.chip.heardWith q y tb) (hopen.trans ho) (closeAs_printing hs _)
              hr (.inr ⟨rfl, ht⟩) top
        exact ⟨t, ht, htaken, hbecomes.others, hspool, hbecomes.job_self, hbecomes.printer_self⟩
      · obtain ⟨t, ht, htaken, hbecomes, hspool⟩ := hclose
          [jobEvent 5 p j (octetPair n 1) (wordNat w.printed)] j p Job.blank
          { s.chip.printer p with claim := none } (·.spool = s.chip.prt.spool) fun q y tb hopen =>
            printClose_ends (f := f) (c := s.chip.heardWith q y tb) (hopen.trans ho) hreact hown hr hs ht hc hq ha
        exact ⟨t, ht, htaken, hbecomes.others, hspool, hbecomes.job_self, hbecomes.printer_self⟩
    · intro h hused htext
      obtain ⟨⟨⟨hframe, -⟩, -⟩, -, -, hkd⟩ := id h
      have hreact : s.chip.noReactions := coaxFrame_noReactions hframe
      have habort := stageTwo_unlinks h (by decide) hn (fun c => printFrame_abort top c hkd) (o := .of 1 j w) rfl
      refine ⟨fun hb hc => ?_, fun hb hc => ?_⟩
      · obtain ⟨t, ht, htaken, hbecomes, hentries⟩ := habort [jobEvent 6 p j (octetPair w.owner 1) 0] j p
          Job.blank ((s.chip.printer p).unlisted j)
          (fun u => ∀ i, u.spoolEntry i = if i ∈ w.spool then none else s.chip.spoolEntry i) fun q y tb hopen =>
            printAbort_of (f := f) (hopen.trans ho) hown
              (abandon_ends (c := s.chip.heardWith q y tb) hused hr htext hreact hb hc .aborted)
        rw [show w.owner = n from hown] at htaken
        exact ⟨t, ht, htaken, hbecomes.others, hbecomes.job_self, hentries, hbecomes.printer_self⟩
      · obtain ⟨t, ht, htaken, hbecomes, hentries⟩ := habort [] j p
          { w.givenUp .aborted s.chip.entryInRing with state := .closing, resume := .free, trunk := 0 }
          ((s.chip.printer p).unlisted j)
          (fun u => ∀ i, u.spoolEntry i =
            if i ∈ w.spool ∧ s.chip.entryInRing i = false then none else s.chip.spoolEntry i) fun q y tb hopen =>
            printAbort_of (f := f) (hopen.trans ho) hown
              (abandon_closes (c := s.chip.heardWith q y tb) hused hr htext hb hc .aborted top)
        exact ⟨t, ht, htaken, hbecomes.others, hentries, hbecomes.job_self, hbecomes.printer_self⟩

end Sys2Proof.Machine

/-! PROOF. PRINT_OPEN (R135), the printer that R159 assigns, and the claim a new job takes (R141). -/

namespace Sys2Proof.Machine

/-! ### The printer assigned (R159) -/

/-- The part `c` with the toggle of printer `a`'s pair turned, where R159 turns it. -/
def Chip.toggledFor (c : Chip) (a : Nat) : Chip :=
  if c.pairModeOf a = .alternate then c.putToggle (a / 2) (!c.toggle (a / 2)) else c

theorem toggle_putToggle (k i : Nat) (v : Bool) (c : Chip) :
    (c.putToggle k v).toggle i = if i = k then v else c.toggle i :=
  tget_tset _ _ _ _ _

theorem toggle_toggledFor (a k : Nat) (c : Chip) : (c.toggledFor a).toggle k =
    if k = a / 2 ∧ c.pairModeOf a = .alternate then !c.toggle k else c.toggle k := by
  unfold Chip.toggledFor
  by_cases hm : c.pairModeOf a = .alternate
  · rw [if_pos hm, toggle_putToggle]
    simp only [hm, and_true]
    split
    · next h => rw [h]
    · rfl
  · rw [if_neg hm, if_neg fun h => hm h.2]

theorem toggledFor_withPrt (a : Nat) (c : Chip) :
    c.toggledFor a = c.withPrt { c.prt with toggles := (c.toggledFor a).prt.toggles } := by
  unfold Chip.toggledFor
  split <;> rfl

theorem toggledFor_prints (a n : Nat) (c : Chip) :
    c.prints (c.toggledFor a) n (c.station n) (c.toggledFor a).prt [] := by
  rw [toggledFor_withPrt]
  exact withPrt_prints ..

/-- The printer of a pair that its toggle and its swap choose (R159). -/
def Chip.chosen (c : Chip) (a : Nat) : Nat :=
  let t := if c.toggle (a / 2) then 1 else 0
  if (c.printerRec (a / 2 * 2)).swap then a / 2 * 2 + 1 - t else a / 2 * 2 + t

/-- The printer that R159 assigns to a PRINT_OPEN which names printer `a`. -/
def Chip.assigned (c : Chip) (a : Nat) : Nat :=
  match c.pairModeOf a with
  | .independent => a
  | .failover =>
    if (c.printer a).state = .ready then a else if (c.printer (partner a)).state = .ready then partner a else a
  | .alternate =>
    if (c.printer (c.chosen a)).state = .ready then c.chosen a
    else if (c.printer (partner (c.chosen a))).state = .ready then partner (c.chosen a)
    else if (c.printer (c.chosen a)).state ≠ .disabled then c.chosen a
    else partner (c.chosen a)

theorem assignPrinter_eq (a : Nat) (c : Chip) : assignPrinter a c = (c.assigned a, c.toggledFor a) := by
  have hchosen : (if (c.printerRec (2 * (a / 2))).swap then 2 * (a / 2) + 1 - bitNat (c.toggle (a / 2))
      else 2 * (a / 2) + bitNat (c.toggle (a / 2))) = c.chosen a := by
    rw [Chip.chosen, Nat.mul_comm]
    rfl
  unfold assignPrinter Chip.assigned Chip.toggledFor
  cases c.pairModeOf a
  case independent => rfl
  case failover => simp only [decide_eq_true_eq, reduceCtorEq, if_false]
  case alternate => simp only [hchosen, decide_eq_true_eq, if_true]

/-! ### A job opened (R135 step 5) -/

/-- The job that frame `f` opens on printer `p`. -/
def PrintFrame.opens (f : PrintFrame) (p : Nat) : Job :=
  { Job.blank with state := .waiting, owner := f.owner, printer := p, seq := f.seq }

/-- A printer with job `j` at the tail of its wait queue. -/
def Printer.listed (j : Nat) (v : Printer) : Printer := { v with queue := v.queue ++ [j] }

theorem logged_jobOpened (p j owner : Nat) : (evJobOpened p j owner).logged = jobEvent 1 p j (octetPair owner 0) 0 :=
  congrArg (Logged.plain .job 1 (wordNat (p * 256 + j)) (octetPair owner 0)) octetPair_zero

theorem logged_jobStarted (p j : Nat) : (evJobStarted p j).logged = jobEvent 2 p j 0 0 := by
  show Logged.plain .job 2 (wordNat (p * 256 + j)) (octetPair 0 0) (octetPair 0 0) = _
  rw [octetPair_zero]
  rfl

/-- What opening a job does before its printer is served. -/
def jobOpened (j p : Nat) (f : PrintFrame) (c : Chip) : Chip :=
  recordEvent (evJobOpened p j f.owner) (((c.putJob j (f.opens p)).putStation f.owner
    { c.station f.owner with openJob := some j }).putPrinter p ((c.printer p).listed j))

theorem openJob_eq (g : Give) (j p : Nat) (f : PrintFrame) (c : Chip) :
    openJob g j p f c = serve g p (jobOpened j p f c) := rfl

theorem jobOpened_spec (j p : Nat) (f : PrintFrame) (c : Chip) : ∃ u,
    c.prints (jobOpened j p f c) f.owner { c.station f.owner with openJob := some j } u
      [jobEvent 1 p j (octetPair f.owner 0) 0] ∧
    c.prt.becomes u j (f.opens p) p ((c.printer p).listed j) ∧ u.spool = c.prt.spool := by
  have hjob := withPrt_prints f.owner (c.putJob j (f.opens p)).prt c
  have hst := hjob.trans (putStation_prints f.owner { c.station f.owner with openJob := some j } _)
  have hall := (hst.withPrt (((c.putJob j (f.opens p)).putPrinter p ((c.printer p).listed j)).prt)).record
    (evJobOpened p j f.owner)
  rw [logged_jobOpened] at hall
  exact ⟨_, hall, (putJob_becomes ..).putPrinter _, rfl⟩

/-! ### A claim taken (R141) -/

/-- A claimant without text gives its printer nothing. -/
theorem feed_noText {c : Chip} {p j : Nat} (hc : (c.printer p).claim = some j) (ht : (c.job j).spool = []) :
    feed p c = c := by
  have hnone : c.nextFed p = none := by
    simp only [Chip.nextFed, hc, ht, List.find?_nil, ite_self]
  change feedN p (63 + 1) c = c
  simp only [feedN, hnone]

/-- A job that is not closed takes a claim: it is PRINTING. -/
theorem startJob_spec {c : Chip} {j : Nat} (hc : (c.job j).closed = .no) (p n : Nat) : ∃ u,
    c.prints (startJob p j c) n (c.station n) u [jobEvent 2 p j 0 0] ∧
    c.prt.becomes u j { c.job j with state := .printing, idle := c.idleSpan } p
      { (c.printer p).unlisted j with claim := some j } ∧ u.spool = c.prt.spool := by
  set w : Job := { c.job j with state := .printing, idle := c.idleSpan } with hw
  set v : Printer := { (c.printer p).unlisted j with claim := some j } with hv
  have hstart : startJob p j c = recordEvent (evJobStarted p j) ((c.putPrinter p v).putJob j w) := by
    unfold startJob
    dsimp only
    rw [if_pos hc]
    rfl
  have hall := (withPrt_prints n ((c.putPrinter p v).putJob j w).prt c).record (evJobStarted p j)
  rw [logged_jobStarted] at hall
  rw [hstart]
  exact ⟨_, hall, ((becomes_refl j p c.prt).putPrinter v).putJob w, rfl⟩

/-- A READY printer without a claimant gives its claim to the only job that waits, here one with no text yet, neither
closed nor abandoned nor SUSPENDED. -/
theorem serve_starts {c : Chip} {p j : Nat} (hm : c.ctl.mode = .run) (hp : (c.printer p).state = .ready)
    (hc : (c.printer p).claim = none) (hq : (c.printer p).queue = [j]) (hs : (c.job j).state ≠ .suspended)
    (hcl : (c.job j).closed = .no) (hr : (c.job j).reason = none) (ht : (c.job j).spool = []) (g : Give) :
    serve g p c = startJob p j c := by
  obtain ⟨u, hprints, hbecomes, -⟩ := startJob_spec hcl p 0
  obtain rfl := hprints.prt
  have hnext : c.nextClaimant p = some j := by
    simp [Chip.nextClaimant, hm, hp, hc, hq, hs]
  have hjob : (startJob p j c).job j = { c.job j with state := .printing, idle := c.idleSpan } := hbecomes.job_self
  have hover : (startJob p j c).jobOver j = false := by
    rw [jobOver_of_kept (by rw [hjob]; exact hr), hjob]
    rfl
  have hclaim : ((startJob p j c).printer p).claim = some j :=
    congrArg Printer.claim (show (startJob p j c).printer p = _ from hbecomes.printer_self)
  have hfeed : feed p (startJob p j c) = startJob p j c := feed_noText hclaim (by rw [hjob]; exact ht)
  change serveN g (63 + 1) p c = _
  rw [serveN, hnext]
  dsimp only
  rw [hover, if_neg Bool.false_ne_true, hfeed]

section Opened

variable {c : Chip} {p : Nat} (j : Nat) (f : PrintFrame) (g : Give)

/-- On a printer that is not READY the job waits. -/
theorem openJob_waits (hp : (c.printer p).state ≠ .ready) : ∃ u,
    c.prints (openJob g j p f c) f.owner { c.station f.owner with openJob := some j } u
      [jobEvent 1 p j (octetPair f.owner 0) 0] ∧
    c.prt.becomes u j (f.opens p) p ((c.printer p).listed j) ∧ u.spool = c.prt.spool := by
  obtain ⟨u, hprints, hbecomes, hspool⟩ := jobOpened_spec j p f c
  obtain rfl := hprints.prt
  have hprinter : (jobOpened j p f c).printer p = (c.printer p).listed j := hbecomes.printer_self
  rw [openJob_eq, serve_notReady g (by rw [hprinter]; exact hp)]
  exact ⟨_, hprints, hbecomes, hspool⟩

/-- A READY printer with nothing claimed and nothing waiting gives the job its claim. -/
theorem openJob_starts (hm : c.ctl.mode = .run) (hp : (c.printer p).state = .ready) (hc : (c.printer p).claim = none)
    (hq : (c.printer p).queue = []) : ∃ u,
    c.prints (openJob g j p f c) f.owner { c.station f.owner with openJob := some j } u
      [jobEvent 1 p j (octetPair f.owner 0) 0, jobEvent 2 p j 0 0] ∧
    c.prt.becomes u j { f.opens p with state := .printing, idle := c.idleSpan } p
      { c.printer p with claim := some j } ∧ u.spool = c.prt.spool := by
  obtain ⟨u, hprints, hbecomes, hspool⟩ := jobOpened_spec j p f c
  obtain rfl := hprints.prt
  have hprinter : (jobOpened j p f c).printer p = (c.printer p).listed j := hbecomes.printer_self
  have hjob : (jobOpened j p f c).job j = f.opens p := hbecomes.job_self
  have hspan : (jobOpened j p f c).idleSpan = c.idleSpan := by simp only [Chip.idleSpan, hprints.ctl]
  have hserve := serve_starts (c := jobOpened j p f c) (p := p) (j := j) (by rw [hprints.ctl]; exact hm)
    (by rw [hprinter]; exact hp) (by rw [hprinter]; exact hc) (by rw [hprinter, Printer.listed, hq]; rfl)
    (by rw [hjob]; exact JobState.noConfusion) (by rw [hjob]; rfl) (by rw [hjob]; rfl) (by rw [hjob]; rfl) g
  obtain ⟨u', hprints', hbecomes', hspool'⟩ := startJob_spec (c := jobOpened j p f c) (j := j) (by rw [hjob]; rfl) p
    f.owner
  have hunlisted : { ((c.printer p).listed j).unlisted j with claim := some j } =
      { c.printer p with claim := some j } := by
    simp [Printer.listed, Printer.unlisted, hq]
  rw [hprints.self] at hprints'
  rw [hjob, hprinter, hspan, hunlisted] at hbecomes'
  rw [openJob_eq, hserve]
  exact ⟨_, hprints.trans hprints', hbecomes.trans hbecomes', hspool'.trans hspool⟩

end Opened

/-- What frame `f` makes of the job it opens on printer `p`. -/
def Chip.newJob (c : Chip) (p : Nat) (f : PrintFrame) : Job :=
  if (c.printer p).state = .ready then { f.opens p with state := .printing, idle := c.idleSpan } else f.opens p

/-- What the opening of job `j` makes of its printer `p`. -/
def Chip.newPrinter (c : Chip) (p j : Nat) : Printer :=
  if (c.printer p).state = .ready then { c.printer p with claim := some j } else (c.printer p).listed j

/-- The events of job `j` opened for station `n` on printer `p`. -/
def Chip.openEvents (c : Chip) (p j n : Nat) : List Logged :=
  jobEvent 1 p j (octetPair n 0) 0 :: if (c.printer p).state = .ready then [jobEvent 2 p j 0 0] else []

/-- A job opened on a printer that is not READY, or has nothing claimed and nothing waiting. -/
theorem openJob_spec {c : Chip} {p : Nat} (hm : c.ctl.mode = .run) (hidle : (c.printer p).state = .ready →
      (c.printer p).claim = none ∧ (c.printer p).queue = []) (j : Nat) (f : PrintFrame) (g : Give) : ∃ u,
    c.prints (openJob g j p f c) f.owner { c.station f.owner with openJob := some j } u (c.openEvents p j f.owner) ∧
    c.prt.becomes u j (c.newJob p f) p (c.newPrinter p j) ∧ u.spool = c.prt.spool := by
  unfold Chip.openEvents Chip.newJob Chip.newPrinter
  by_cases hp : (c.printer p).state = .ready
  · simp only [if_pos hp]
    exact openJob_starts j f g hm hp (hidle hp).1 (hidle hp).2
  · simp only [if_neg hp]
    exact openJob_waits j f g hp

/-! ### PRINT_OPEN (R131, R135) -/

/-- The printer a PRINT_OPEN names, in octet 0 of its payload (R131). -/
def Slot.wished (v : Slot) : Nat := (hiOctet (v.payload.getD 0)).toNat

/-- The payload word of a PRINT_OPEN with a payload has been fetched (R42, R131). -/
theorem payload_fetched {u : UnitRec} {v : Slot} (h : v.ready u .coax = true) (hf : v.fixed = none)
    (hk : v.num 2 = 16) (hl : v.payloadLen .coax ≠ 0) : ∃ d, v.payload = some d := by
  have hw : v.wants u .coax = none := Option.isNone_iff_eq_none.mp h
  have hneeds : v.needsNothing .coax = false := by simp [Slot.needsNothing, hf]
  have hkind : v.kind .coax = 16 := hk
  unfold Slot.wants at hw
  rw [hneeds, if_neg Bool.false_ne_true] at hw
  cases hp : v.payload with
  | some d => exact ⟨d, rfl⟩
  | none =>
    have hwants : v.wantsPayload u .coax = true := by simp [Slot.wantsPayload, hkind, hl, hp]
    rw [hwants] at hw
    split at hw
    · exact nomatch hw
    · split at hw <;> exact nomatch hw

/-- The printer a PRINT_OPEN names, none when it has no payload. -/
theorem printFrame_printer {u : UnitRec} {v : Slot} (h : v.ready u .coax = true) (hf : v.fixed = none)
    (hk : v.num 2 = 16) (n : Nat) : (v.printFrame .coax n).printer =
      if v.num 4 * 256 + v.num 5 = 0 then none else some v.wished := by
  have hlen : v.payloadLen .coax = v.num 4 * 256 + v.num 5 := payloadLen_eq .coax v
  rw [Slot.printFrame, hlen]
  dsimp only
  split
  · rfl
  · next hl =>
    obtain ⟨d, hd⟩ := payload_fetched h hf hk (hlen ▸ hl)
    rw [Slot.wished, hd]
    rfl

section Open

variable {c : Chip} {f : PrintFrame} (g : Give)

theorem printFrame_open (h : f.kind = 16) (c : Chip) : printFrame g f c = printOpen g f c := by
  rw [printFrame, h]
  rfl

theorem printOpen_duplicate {j : Nat} (ho : (c.station f.owner).openJob = some j) (ha : (c.job j).accepted = 0) :
    printOpen g f c = (.of 2 j (c.job j), c) := by
  simp only [printOpen, ho, ha, if_true]

section NoJob

variable (ho : (c.station f.owner).openJob = none)
include ho

theorem printOpen_nowhere (hw : c.opensNowhere f.printer = true) : printOpen g f c = (.refused 1, c) := by
  simp only [printOpen, ho, hw, if_true]

variable (hw : c.opensNowhere f.printer = false)
include hw

theorem printOpen_tableFull (hj : ∀ j < 32, (c.job j).state ≠ .free) : printOpen g f c = (.refused 2, c) := by
  have hnone : lowest Config.jobRecords (fun j => decide ((c.job j).state = .free)) = none :=
    List.find?_eq_none.mpr fun j hmem => by simpa using hj j (List.mem_range.mp hmem)
  simp only [printOpen, ho, hw, Bool.false_eq_true, if_false, openFresh, abandonOpen_none ho, hnone]

theorem printOpen_opens {j : Nat} (hj : j < 32) (hf : (c.job j).state = .free)
    (hl : ∀ i < j, (c.job i).state ≠ .free) : printOpen g f c =
      ({ detail := 1, job := j, printer := c.assigned (f.printer.getD 0) },
        openJob g j (c.assigned (f.printer.getD 0)) f (c.toggledFor (f.printer.getD 0))) := by
  have hlow : lowest Config.jobRecords (fun j => decide ((c.job j).state = .free)) = some j :=
    lowest_eq_some hj (decide_eq_true hf) fun i hi => decide_eq_false (hl i hi)
  simp only [printOpen, ho, hw, Bool.false_eq_true, if_false, openFresh, abandonOpen_none ho, hlow, assignPrinter_eq]

end NoJob

/-- What a PRINT_OPEN that opens a job leaves (R135). -/
theorem printOpen_spec {a j p : Nat} (hm : c.ctl.mode = .run) (ho : (c.station f.owner).openJob = none)
    (ha : f.printer = some a) (hw : c.opensNowhere (some a) = false) (hj : j < 32) (hf : (c.job j).state = .free)
    (hl : ∀ i < j, (c.job i).state ≠ .free) (hp : c.assigned a = p) (hidle : (c.printer p).state = .ready →
      (c.printer p).claim = none ∧ (c.printer p).queue = []) : ∃ d u,
    printOpen g f c = ({ detail := 1, job := j, printer := p }, d) ∧
    c.prints d f.owner { c.station f.owner with openJob := some j } u (c.openEvents p j f.owner) ∧
    (c.toggledFor a).prt.becomes u j (c.newJob p f) p (c.newPrinter p j) ∧ u.spool = c.prt.spool := by
  have hopens := printOpen_opens g ho (ha ▸ hw) hj hf hl
  rw [ha, Option.getD_some, hp] at hopens
  have htoggled := toggledFor_prints a f.owner c
  have hreads := toggledFor_withPrt a c
  obtain ⟨u, hprints, hbecomes, hspool⟩ := openJob_spec (c := c.toggledFor a) (p := p) (by rw [hreads]; exact hm)
    (by rw [hreads]; exact hidle) j f g
  have hjob : (c.toggledFor a).newJob p f = c.newJob p f := by rw [hreads]; rfl
  have hprinter : (c.toggledFor a).newPrinter p j = c.newPrinter p j := by rw [hreads]; rfl
  have hevents : (c.toggledFor a).openEvents p j f.owner = c.openEvents p j f.owner := by rw [hreads]; rfl
  rw [htoggled.self, hevents] at hprints
  rw [hjob, hprinter] at hbecomes
  exact ⟨_, u, hopens, htoggled.trans hprints, hbecomes, hspool.trans (by rw [hreads]; rfl)⟩

end Open

/-! ### Stage two of PRINT_OPEN (R132, R135) -/

section Stage

variable {s : State} {v : Slot} (h : s.chip.printFrame v 16) (hn : s.chip.noneSuspended)
include h hn

/-- A PRINT_OPEN that opens nothing: the frame is heard, and answered. -/
theorem stageTwo_stays {o : PrintOutcome} (ho : o.held = false)
    (hp : ∀ q y tb, ((s.chip.heardWith q y tb).station (v.num 1)).openJob = (s.chip.station (v.num 1)).openJob →
      printOpen top (v.printFrame .coax (v.num 1)) (s.chip.heardWith q y tb) = (o, s.chip.heardWith q y tb)) :
    ∃ t, exec (.stageTwo .coax) s = .next t ∧
      (s.released t .coax v (printVerdict (v.num 1) (v.num 0) o.detail (256 * (o.job % 32) + 8192 * (o.printer % 8))
          o.reason) ∧
        s.chip.formed t.chip .print []) ∧
      t.chip = { s.chip.over t.chip with
        frm := t.chip.frm, stn := { s.chip.stn with table := t.chip.stn.table } } ∧
      (∀ m, t.chip.station m = if m = v.num 1 then (s.chip.station (v.num 1)).heardHome s.chip.stn.clock
        else s.chip.station m) ∧
      s.chip.logs t.chip ((s.chip.station (v.num 1)).heardEvents (v.num 1)) := by
  obtain ⟨-, -, -, hk⟩ := id h
  obtain ⟨t, ht, hrel, hformed, hover, hst, hlogs, hprt⟩ := stageTwo_print h (by decide) hn ho (l := [])
    (e := (s.chip.station (v.num 1)).heardHome s.chip.stn.clock) (R := (· = s.chip.prt)) fun q y tb hheard => by
      refine ⟨_, _, (printFrame_open top hk _).trans (hp q y tb (by rw [hheard]; rfl)), ?_, rfl⟩
      rw [← hheard]
      exact prints_refl ..
  rw [hprt] at hover
  rw [List.append_nil] at hlogs
  exact ⟨t, ht, ⟨hrel, hformed⟩, hover, hst, hlogs⟩

/-- A PRINT_OPEN that opens job `j`, on a printer that is not READY or has nothing claimed and nothing waiting. -/
theorem stageTwo_opens {a j : Nat} (ho : (s.chip.station (v.num 1)).openJob = none)
    (ha : (v.printFrame .coax (v.num 1)).printer = some a) (hw : s.chip.opensNowhere (some a) = false) (hj : j < 32)
    (hf : (s.chip.job j).state = .free) (hl : ∀ i < j, (s.chip.job i).state ≠ .free) {p : Nat}
    (hpa : s.chip.assigned a = p) (hidle : (s.chip.printer p).state = .ready →
      (s.chip.printer p).claim = none ∧ (s.chip.printer p).queue = []) :
    ∃ t, exec (.stageTwo .coax) s = .next t ∧
      (s.released t .coax v (printVerdict (v.num 1) (v.num 0) 1 (256 * (j % 32) + 8192 * (p % 8)) 0) ∧
        s.chip.formed t.chip .print []) ∧
      t.chip = { s.chip.over t.chip with
        frm := t.chip.frm, stn := { s.chip.stn with table := t.chip.stn.table }
        prt := { s.chip.prt with
          jobs := t.chip.prt.jobs, printers := t.chip.prt.printers, toggles := t.chip.prt.toggles } } ∧
      (∀ m, t.chip.station m = if m = v.num 1 then
        { (s.chip.station (v.num 1)).heardHome s.chip.stn.clock with openJob := some j } else s.chip.station m) ∧
      (∀ i, t.chip.job i =
        if i ≠ j then s.chip.job i else s.chip.newJob p (v.printFrame .coax (v.num 1))) ∧
      (∀ q, t.chip.printer q = if q ≠ p then s.chip.printer q else s.chip.newPrinter p j) ∧
      (∀ k, t.chip.toggle k =
        if k = a / 2 ∧ s.chip.pairModeOf a = .alternate then !s.chip.toggle k else s.chip.toggle k) ∧
      s.chip.logs t.chip ((s.chip.station (v.num 1)).heardEvents (v.num 1) ++ s.chip.openEvents p j (v.num 1)) := by
  obtain ⟨⟨⟨⟨⟨hrun, -⟩, -⟩, -⟩, -⟩, -, -, hk⟩ := id h
  obtain ⟨t, ht, hrel, hformed, hover, hst, hlogs, ⟨hjob, hprinter, htoggles⟩, hspool⟩ := stageTwo_print h (by decide)
    hn (o := { detail := 1, job := j, printer := p }) rfl (l := s.chip.openEvents p j (v.num 1))
    (e := { (s.chip.station (v.num 1)).heardHome s.chip.stn.clock with openJob := some j })
    (R := fun u => (s.chip.toggledFor a).prt.becomes u j (s.chip.newJob p (v.printFrame .coax (v.num 1))) p
      (s.chip.newPrinter p j) ∧ u.spool = s.chip.prt.spool)
    fun q y tb hheard => by
      obtain ⟨d, u, hd, hprints, hrest⟩ := printOpen_spec (c := s.chip.heardWith q y tb)
        (f := v.printFrame .coax (v.num 1)) top hrun ((congrArg Station.openJob hheard).trans ho) ha hw hj hf hl hpa
        hidle
      have hprt : ((s.chip.heardWith q y tb).toggledFor a).prt = (s.chip.toggledFor a).prt := by
        unfold Chip.toggledFor
        rw [apply_ite Chip.prt, apply_ite Chip.prt]
        rfl
      rw [show (s.chip.heardWith q y tb).station (v.printFrame .coax (v.num 1)).owner = _ from hheard] at hprints
      rw [hprt] at hrest
      exact ⟨d, u, (printFrame_open top hk _).trans hd, hprints, hrest⟩
  have hkept : (s.chip.toggledFor a).job = s.chip.job ∧ (s.chip.toggledFor a).printer = s.chip.printer := by
    rw [toggledFor_withPrt]
    exact ⟨rfl, rfl⟩
  refine ⟨t, ht, ⟨hrel, hformed⟩, hover.trans ?_, hst, fun i => ?_, fun q => ?_, fun k => ?_, hlogs⟩
  · dsimp only
    rw [← hspool]
  · rw [← hkept.1, ite_not]
    exact hjob i
  · rw [← hkept.2, ite_not]
    exact hprinter q
  · rw [← toggle_toggledFor]
    exact congrArg (tget false · k) htoggles

end Stage

/-- Settles O52: R159's choice is the model's, and each of R135's cases is a lemma above. -/
theorem printOpenAssignsAPrinter : Obligations.PrintOpenAssignsAPrinter := by
  unfold Obligations.PrintOpenAssignsAPrinter
  intro v s h hn n e a nowhere verdict heard stays ready mate tog chosen p
  obtain ⟨⟨⟨⟨⟨hrun, -, hready, -⟩, hfixed, -⟩, -⟩, -⟩, -, -, hk⟩ := id h
  have hprinter := printFrame_printer hready hfixed hk n
  have hnowhere : s.chip.opensNowhere (v.printFrame .coax n).printer = true ↔ nowhere := by
    rw [hprinter]
    split
    · next hl => simp [Chip.opensNowhere, nowhere, hl]
    · next hl =>
      simp only [Chip.opensNowhere, nowhere, hl, false_or, Bool.or_eq_true, decide_eq_true_eq]
      rfl
  refine ⟨fun j ho ha => ?_, fun ho hw => ?_, fun ho hw hfull => ?_, fun j ho hw hj hf hl hidle => ?_⟩
  · exact stageTwo_stays h hn (o := .of 2 j (s.chip.job j)) rfl fun q y tb hopen =>
      printOpen_duplicate top (hopen.trans ho) ha
  · exact stageTwo_stays h hn (o := .refused 1) rfl fun q y tb hopen =>
      printOpen_nowhere top (hopen.trans ho) (hnowhere.mpr hw)
  · exact stageTwo_stays h hn (o := .refused 2) rfl fun q y tb hopen =>
      printOpen_tableFull top (hopen.trans ho) (Bool.eq_false_iff.mpr (mt hnowhere.mp hw)) hfull
  · have ha : (v.printFrame .coax n).printer = some a := hprinter.trans (if_neg fun hz => hw (.inl hz))
    have hw' : s.chip.opensNowhere (some a) = false := ha ▸ Bool.eq_false_iff.mpr (mt hnowhere.mp hw)
    exact stageTwo_opens h hn ho ha hw' hj hf hl rfl hidle

end Sys2Proof.Machine
